-- ==== Sys2Proof/Word.lean ====
section
/-! DEFINITION. The words of NTX: a bus byte, a nibble, a request word (R9, R66), and the two forms in which an
instruction of the opcode table is written down. -/

namespace Sys2Proof

/-- A bus byte, and a command or data value (R9). -/
abbrev Byte := BitVec 8

/-- Half a byte (R9). -/
abbrev Nibble := BitVec 4

/-- A request word, format REQ32 (R66). -/
abbrev Word := BitVec 32

/-- An instruction as written: a 32-bit request word given to NTX (R66), or an 8-bit HD44780 command byte, which the
host passes to SENDCMD (R76). -/
inductive Code where
  /-- a word on `req_data` -/
  | request (w : Word)
  /-- a command byte the host is to send -/
  | command (b : Byte)
  deriving DecidableEq, Repr

end Sys2Proof
end

