-- ==== Sys2Proof/Config.lean ====
section
/-! DEFINITION. What an implementation fixes: the parameters of R8, the `BusErr` type, the host's constant table, and
the free values (93_implementation_defined.md, treatment `any value`). -/

namespace Sys2Proof

/-- Which numbers beside 0 name a value of `BusErr` (R8, D26): OPEN, so it has no value here. -/
opaque Config.moreBusErr : Nat → Bool

/-- The number names a value of `BusErr`. There is at least one value, number 0. -/
def Config.isBusErr (n : Nat) : Bool := n == 0 || Config.moreBusErr n

/-- `BusErr`, the OPEN type of the error value the bus port returns (R8, D26): as many values, numbered, as the hardware has.
NTX never looks inside one (log 7). -/
structure BusErr where
  code : Nat
  isValue : Config.isBusErr code = true
  deriving DecidableEq, Repr

/-- The one value that every `BusErr` type has. -/
def BusErr.first : BusErr := { code := 0, isValue := rfl }

/-- The parameters of R8 that change what NTX or its host does. -/
structure Params where
  /-- `P_RS_BIT` -/
  rsBit : Fin 4
  /-- `P_RW_BIT` -/
  rwBit : Fin 4
  /-- `P_E_BIT` -/
  eBit : Fin 4
  /-- `P_BL_BIT` -/
  blBit : Fin 4
  /-- `T_EH`, µs -/
  tEh : Nat
  /-- `T_POST`, µs -/
  tPost : Nat
  /-- `P_SETTLE` -/
  settle : Bool
  /-- `P_INIT_BL_WRITE` -/
  initBlWrite : Bool
  /-- `P_WAIT_BITS` -/
  waitBits : Nat
  deriving DecidableEq, Repr

/-- The default values of R8. -/
def Params.default : Params :=
  { rsBit := 0, rwBit := 1, eBit := 2, blBit := 3, tEh := 1, tPost := 50, settle := false, initBlWrite := false,
    waitBits := 24 }

/-- What R8 and R92 ask of the parameters: four distinct control bits, and waits no smaller than the minimums. The WAITUS
count fits `ARG` and holds the longest wait asked for, 0x0F4240 (R71; log 7). -/
abbrev Params.Wf (p : Params) : Prop :=
  p.rsBit ≠ p.rwBit ∧ p.rsBit ≠ p.eBit ∧ p.rsBit ≠ p.blBit ∧ p.rwBit ≠ p.eBit ∧ p.rwBit ≠ p.blBit ∧
    p.eBit ≠ p.blBit ∧ 1 ≤ p.tEh ∧ 50 ≤ p.tPost ∧ 20 ≤ p.waitBits ∧ p.waitBits ≤ 24

/-- `RowOffsetTable` (R30). -/
def Config.rowOffsetTable : List Nat := [0x00, 0x40, 0x14, 0x54]

/-- `P_EXP_ADDR` (R8, D24): OPEN, so it has no value here. -/
opaque Config.expAddr : BitVec 7

/-- `P_TICK_NS` minus 1 (R8, R114, D25): OPEN but for `P_TICK_NS < 1000`. -/
opaque Config.tickNsPred : Fin 999

/-- `P_TICK_NS`: a period of at least 1 ns and less than 1000 ns. -/
def Config.tickNs : Nat := Config.tickNsPred.val + 1

/-- Where an UNKNOWN controller may be (R59, U15). -/
inductive Framing where
  | bit8
  | bit4High
  | bit4Low
  deriving DecidableEq, Repr, Inhabited

/-- Free value number `n`: eight bits no document gives (U4, U15, U18). Log 2. -/
opaque Config.freeByte : Nat → Byte

/-- Free value number `n`: a choice no document gives (U14). Log 2. -/
opaque Config.freeBit : Nat → Bool

/-- Free value number `n`: the framing of a controller whose mode is UNKNOWN (U15). Log 2. -/
opaque Config.freeFraming : Nat → Framing

end Sys2Proof
end

