-- ==== Sys2Proof/Syntax.lean ====
section
/-! DEFINITION. The instructions: one constructor per row of spec/opcode_table.json. -/

namespace Sys2Proof

/-- The five requests of NTX and ILLEGAL (R67, R72), then the eight HD44780 command bytes, which SENDCMD carries (R76). -/
inductive Instr where
  /-- WRNIB `V` (R68, R91) -/
  | wrnib (v : Byte)
  /-- SENDCMD `B` (R69, R106) -/
  | sendcmd (b : Byte)
  /-- SENDDATA `B` (R69, R107) -/
  | senddata (b : Byte)
  /-- SETBL `X` (R70, R97) -/
  | setbl (x : Bool)
  /-- WAITUS `N` (R71, R112) -/
  | waitus (n : BitVec 24)
  /-- ILLEGAL: a request word of no other row (R72, R141) -/
  | illegal (w : Word)
  /-- ClearDisplay (R76) -/
  | clearDisplay
  /-- ReturnHome (R76) -/
  | returnHome
  /-- EntryModeSet: `ID` (1 = left-to-right), `S` (1 = shift) (R77) -/
  | entryModeSet (id s : Bool)
  /-- DisplayControl: `D` display, `C` cursor, `B` blink (R78) -/
  | displayControl (d c b : Bool)
  /-- CursorShift: four operand bits no rule names (R76) -/
  | cursorShift (x : BitVec 4)
  /-- FunctionSet: `DL` (1 = 8-bit), `N` (1 = 2-line), `F` (1 = 5x10), and two bits no rule names (R79) -/
  | functionSet (dl n f : Bool) (low : BitVec 2)
  /-- SetCGRamAddr `ACG` (R76) -/
  | setCGRamAddr (a : BitVec 6)
  /-- SetDDRamAddr `ADD` (R76) -/
  | setDDRamAddr (a : BitVec 7)
  deriving DecidableEq, Repr

end Sys2Proof
end

