-- ==== Sys2Proof/WellFormed.lean ====
section
/-! DEFINITION. Which terms of `Instr` are instructions: the must-be-zero bits of R68, the width of the WAITUS count, and
ILLEGAL words (R72). -/

namespace Sys2Proof

/-- R90: the E and the RW position of a WRNIB operand are 0. -/
def WellFormed.controlClear (p : Params) (v : Byte) : Bool :=
  !v.getLsbD p.eBit.val && !v.getLsbD p.rwBit.val

/-- The WAITUS count is no wider than `P_WAIT_BITS`; all of `ARG` at its default (R71). -/
def WellFormed.waitFits (p : Params) (n : BitVec 24) : Bool := n.toNat < 2 ^ p.waitBits

/-- R72, read from its three conditions: the word belongs to one of the five requests. -/
def WellFormed.legalRequest (p : Params) (w : Word) : Bool :=
  (w.extractLsb' 8 24 == 0x010000#24 && WellFormed.controlClear p (w.extractLsb' 0 8)) ||
    w.extractLsb' 8 24 == 0x020000#24 || w.extractLsb' 8 24 == 0x030000#24 ||
    w.extractLsb' 1 31 == 0x02000000#31 || (w.extractLsb' 24 8 == 0x05#8 && WellFormed.waitFits p (w.extractLsb' 0 24))

/-- The instruction is one the hardware can be given. -/
def WellFormed (p : Params) : Instr → Bool
  | .wrnib v => WellFormed.controlClear p v
  | .sendcmd _ => true
  | .senddata _ => true
  | .setbl _ => true
  | .waitus n => WellFormed.waitFits p n
  | .illegal w => !WellFormed.legalRequest p w
  | .clearDisplay => true
  | .returnHome => true
  | .entryModeSet _ _ => true
  | .displayControl _ _ _ => true
  | .cursorShift _ => true
  | .functionSet _ _ _ _ => true
  | .setCGRamAddr _ => true
  | .setDDRamAddr _ => true

end Sys2Proof
end

