-- ==== Sys2Proof/Decode.lean ====
section
/-! DEFINITION. Reading an instruction from its bits (R66–R73, R76–R79), and writing it back. -/

namespace Sys2Proof

/-- What a decoder answers: an instruction, or a rejection by name. -/
inductive Decoded where
  | instr (i : Instr)
  /-- the command byte is the match of no row of R76 (only 0x00 and 0x03) -/
  | noRow (b : Byte)
  deriving DecidableEq, Repr

/-- `decode` of R73, line for line; every field is unsigned and is taken as it stands. R68's positions of E and RW are
the parameters `P_E_BIT` and `P_RW_BIT`, and the bits of `ARG` above `P_WAIT_BITS`, of which the default has none, must be zero
(D4). -/
def decodeRequest (p : Params) (w : Word) : Instr :=
  let op := w.extractLsb' 24 8
  let arg := w.extractLsb' 0 24
  if op = 0x01#8 ∧ arg.extractLsb' 8 16 = 0#16 ∧ arg.getLsbD p.eBit.val = false ∧ arg.getLsbD p.rwBit.val = false then
    .wrnib (arg.extractLsb' 0 8)
  else if op = 0x02#8 ∧ arg.extractLsb' 8 16 = 0#16 then .sendcmd (arg.extractLsb' 0 8)
  else if op = 0x03#8 ∧ arg.extractLsb' 8 16 = 0#16 then .senddata (arg.extractLsb' 0 8)
  else if op = 0x04#8 ∧ arg.extractLsb' 1 23 = 0#23 then .setbl (arg.getLsbD 0)
  else if op = 0x05#8 ∧ arg >>> p.waitBits = 0#24 then .waitus arg
  else .illegal w

/-- The command byte's name: the row of R76 whose highest set bit it has, with the operand bits of R77 to R79. -/
def decodeCommand (b : Byte) : Decoded :=
  if b.getLsbD 7 then .instr (.setDDRamAddr (b.extractLsb' 0 7))
  else if b.getLsbD 6 then .instr (.setCGRamAddr (b.extractLsb' 0 6))
  else if b.getLsbD 5 then .instr (.functionSet (b.getLsbD 4) (b.getLsbD 3) (b.getLsbD 2) (b.extractLsb' 0 2))
  else if b.getLsbD 4 then .instr (.cursorShift (b.extractLsb' 0 4))
  else if b.getLsbD 3 then .instr (.displayControl (b.getLsbD 2) (b.getLsbD 1) (b.getLsbD 0))
  else if b.getLsbD 2 then .instr (.entryModeSet (b.getLsbD 1) (b.getLsbD 0))
  else if b = 0x02#8 then .instr .returnHome
  else if b = 0x01#8 then .instr .clearDisplay
  else .noRow b

/-- The instruction a code stands for. -/
def decode (p : Params) : Code → Decoded
  | .request w => .instr (decodeRequest p w)
  | .command b => decodeCommand b

/-- REQ32 with an 8-bit operand: `ARG[23:8] = 0` (R66, R68, R69). -/
def encodeByteRequest (op v : Byte) : Word := op ++ (0#16 ++ v)

/-- The command byte of an HD44780 command (R76–R79); the requests have none. -/
def encodeCommand : Instr → Option Byte
  | .wrnib _ => none
  | .sendcmd _ => none
  | .senddata _ => none
  | .setbl _ => none
  | .waitus _ => none
  | .illegal _ => none
  | .clearDisplay => some 0x01#8
  | .returnHome => some 0x02#8
  | .entryModeSet id s => some (0b000001#6 ++ (BitVec.ofBool id ++ BitVec.ofBool s))
  | .displayControl d c b => some (0b00001#5 ++ (BitVec.ofBool d ++ (BitVec.ofBool c ++ BitVec.ofBool b)))
  | .cursorShift x => some (0b0001#4 ++ x)
  | .functionSet dl n f low =>
    some (0b001#3 ++ (BitVec.ofBool dl ++ (BitVec.ofBool n ++ (BitVec.ofBool f ++ low))))
  | .setCGRamAddr a => some (0b01#2 ++ a)
  | .setDDRamAddr a => some (0b1#1 ++ a)

/-- The request word that NTX is given for an instruction: the request's own (R66–R71), or, for an HD44780 command, the
SENDCMD that carries its byte (R76, R81). -/
def encodeRequest (i : Instr) : Word :=
  match i with
  | .wrnib v => encodeByteRequest 0x01#8 v
  | .sendcmd b => encodeByteRequest 0x02#8 b
  | .senddata b => encodeByteRequest 0x03#8 b
  | .setbl x => 0x04#8 ++ (0#23 ++ BitVec.ofBool x)
  | .waitus n => 0x05#8 ++ n
  | .illegal w => w
  | .clearDisplay => encodeByteRequest 0x02#8 ((encodeCommand i).getD 0#8)
  | .returnHome => encodeByteRequest 0x02#8 ((encodeCommand i).getD 0#8)
  | .entryModeSet _ _ => encodeByteRequest 0x02#8 ((encodeCommand i).getD 0#8)
  | .displayControl _ _ _ => encodeByteRequest 0x02#8 ((encodeCommand i).getD 0#8)
  | .cursorShift _ => encodeByteRequest 0x02#8 ((encodeCommand i).getD 0#8)
  | .functionSet _ _ _ _ => encodeByteRequest 0x02#8 ((encodeCommand i).getD 0#8)
  | .setCGRamAddr _ => encodeByteRequest 0x02#8 ((encodeCommand i).getD 0#8)
  | .setDDRamAddr _ => encodeByteRequest 0x02#8 ((encodeCommand i).getD 0#8)

/-- The instruction as the opcode table writes it: a request word, or a command byte. -/
def encode (i : Instr) : Code :=
  match encodeCommand i with
  | some b => .command b
  | none => .request (encodeRequest i)

/-- The code of an opcode-table row's word: the payload rows have 8 bits, every other row is a REQ32 word. -/
def tableCode (nbits w : Nat) : Code :=
  if nbits = 8 then .command (BitVec.ofNat 8 w) else .request (BitVec.ofNat 32 w)

/-- The instruction the decoder reads from a row's word, at the default parameters; none where it refuses. -/
def decodeTableWord (nbits w : Nat) : Option Instr :=
  match decode Params.default (tableCode nbits w) with
  | .instr i => some i
  | .noRow _ => none

end Sys2Proof
end

