-- ==== Sys2Proof/Machine/State.lean ====
section
/-! DEFINITION. The state of the whole system: NTX (R16–R22), the expander and the controller behind it (R27, R28), the
host driver (R29, R31), the trace (R12), and the inputs from outside. Plain data throughout. -/

namespace Sys2Proof.Machine

/-- `IDLE` or `BUSY` (R18). -/
inductive Fsm where
  | idle
  | busy
  deriving DecidableEq, Repr

/-- The result of one bus write (R46). -/
inductive BusResult where
  | ok
  | err (e : BusErr)
  deriving DecidableEq, Repr

/-- An event of the trace (R12): `W(v, r)` or `D(n)`. -/
inductive Event where
  | write (v : Byte) (r : BusResult)
  | delay (n : Nat)
  deriving DecidableEq, Repr

/-- What the bus port answers to one write: `bus_wr_ok` and `bus_wr_err`, at `bus_wr_done` (R64). -/
structure BusAnswer where
  wrOk : Bool
  wrErr : BusErr
  deriving DecidableEq, Repr

/-- One line of a request's pseudocode that takes time: a bus write, or the start or the end of a `Delay(n)` (R11,
R113). -/
inductive Line where
  | write (v : Byte)
  | startDelay (n : Nat)
  | endDelay (n : Nat)
  deriving DecidableEq, Repr

/-- The NTX block (R16). -/
structure Ntx where
  /-- `BL` (R17) -/
  bl : Bool
  /-- `FSM` (R18) -/
  fsm : Fsm
  /-- the lines of the request still to run: R18's internal step index, not visible to the host -/
  todo : List Line
  /-- `REQ` (R19) -/
  req : Word
  /-- `TMR`: ticks left, or idle (R20) -/
  tmr : Option Nat
  /-- `ERRS` (R21) -/
  errs : Bool
  /-- `RSP_STATUS` (R22) -/
  rspStatus : BitVec 2
  /-- `RSP_INFO` (R22) -/
  rspInfo : BusErr
  /-- `rsp_valid` (R63) -/
  rspValid : Bool
  /-- the bus write in its handshake (R64): `bus_wr_valid` is 1 while there is one, and `bus_wr_data` is its byte, which is never
  kept beyond it (R16) -/
  busWr : Option Byte
  deriving DecidableEq, Repr

/-- `LCD_MODE` (R28). -/
inductive LcdMode where
  | unknown
  | bit8
  | bit4
  deriving DecidableEq, Repr

/-- `LCD_PHASE` (R28). -/
inductive LcdPhase where
  | high
  | low
  deriving DecidableEq, Repr

/-- The flags of EntryModeSet (R77). -/
structure EntryMode where
  leftToRight : Bool
  shift : Bool
  deriving DecidableEq, Repr

/-- The flags of DisplayControl (R78). -/
structure DisplayFlags where
  displayOn : Bool
  cursorOn : Bool
  blinkOn : Bool
  deriving DecidableEq, Repr

/-- The flags of FunctionSet (R79). -/
structure FunctionFlags where
  eightBit : Bool
  twoLine : Bool
  tallFont : Bool
  deriving DecidableEq, Repr

/-- A byte the controller took: display data if `rs`, an instruction otherwise (R58). -/
structure LcdByte where
  rs : Bool
  byte : Byte
  deriving DecidableEq, Repr

/-- A memory: (address, byte) pairs, addresses strictly rising; an address that is not listed has no known content. -/
abbrev Memory := List Host.Cell

/-- Where the requests so far stand in the pairing of nibbles (R50, R169), read from them alone; the model's own (log 16). -/
inductive Pairing where
  /-- no Initialize has been run since the controller was last lost (R162): no nibble is known to be the first of a byte -/
  | lost
  /-- between two bytes -/
  | between
  /-- one WRNIB of a pair has been sent, with this RS -/
  | half (rs : Bool)
  /-- within a synchronisation (R121): the Display Driver's own, or one of raw requests -/
  | syncing (own : Bool)
  deriving DecidableEq, Repr

/-- A `WRNIB 0x3x` of a row; the model's own (log 11). -/
structure SyncNibble where
  /-- Initialize's synchronisation can have begun with it: no byte was half sent (R169) -/
  first : Bool
  /-- at least the 1000 ms of R120 had passed before it, since the last pulse and since the controller was last lost (R162) -/
  waited : Bool
  deriving DecidableEq, Repr

/-- How much of Initialize has been run since the controller was last lost (R162); the model's own (log 16). -/
inductive Setup where
  /-- nothing yet that counts: no SENDCMD or SENDDATA means anything -/
  | missing
  /-- the 1000 ms wait and the synchronisation, and of the configuration (R122) all but these bytes -/
  | configuring (left : List Byte)
  /-- all of it -/
  | complete
  deriving DecidableEq, Repr

/-- The expander's outputs and the HD44780 controller (R27, R28, R57–R60): the reference receiver. `none` is the spec's
`UNKNOWN` (R27; D35: "Where the model does not know the controller's state, it is `UNKNOWN`"). -/
structure Receiver where
  /-- `EXP_PINS` (R27) -/
  pins : Option Byte
  /-- `LCD_MODE` (R28) -/
  mode : LcdMode
  /-- `LCD_PHASE` (R28) -/
  phase : LcdPhase
  /-- the high half stored in `LCD_PHASE = LOW` (R58) -/
  high : Nibble
  /-- `LCD_BUSY_UNTIL` (R28), in µs of `State.now` -/
  busyUntil : Nat
  /-- no request may write the bus before this time (R164), in µs of `State.now` -/
  quietUntil : Nat
  /-- when the own waits of the last request with pulses are over, or of its first pulse if it has two, or when the pins were last
  lost (R162, R166), in µs of `State.now` -/
  pulseEnd : Nat
  /-- where the requests so far stand in the pairing of nibbles (R169); the model's own -/
  pairing : Pairing
  /-- the last `WRNIB 0x3x` in a row with R166's 4500 µs between them, at most three, newest first; the model's own
  (log 11) -/
  syncRow : List SyncNibble
  /-- how much of Initialize has been run (R162); the model's own (log 16) -/
  setup : Setup
  /-- the DDRAM address (R41, R76) -/
  addr : Option (BitVec 7)
  /-- EntryModeSet's flags (R77) -/
  entry : Option EntryMode
  /-- DisplayControl's flags (R78) -/
  display : Option DisplayFlags
  /-- FunctionSet's flags (R79) -/
  function : Option FunctionFlags
  /-- DDRAM as far as it is known (R41) -/
  ddram : Memory
  /-- a hazard was met, so that "every later display content" is "any value" (R60) -/
  contentLost : Bool
  /-- the bytes taken so far, oldest first (R58); the model's own -/
  executed : List LcdByte
  /-- how many free values have been used; the model's own (log 2) -/
  draws : Nat
  deriving DecidableEq, Repr

/-- `DRV_STATE` (R31). -/
inductive DrvState where
  | uninitialized
  | initializing
  | ready
  | failed
  deriving DecidableEq, Repr

/-- One line of a driver operation (R120–R136): issue a request, set the `displayOn` flag, or send the DisplayControl
composite of the flags as they then are (R127). -/
inductive HostLine where
  | issue (w : Word)
  | setDisplayOn (x : Bool)
  | sendDisplayControl
  deriving DecidableEq, Repr

/-- A driver operation in progress (R118): the lines still to do, and whether the response to a request of it is awaited. -/
structure Job where
  todo : List HostLine
  awaiting : Bool
  deriving DecidableEq, Repr

/-- What the last driver operation returned to its caller (R118, R125). -/
inductive OpResult where
  | nothingYet
  | ok
  | failed (status : BitVec 2) (info : BusErr)
  /-- a reset of NTX took the response away (R158; log 13) -/
  | lost
  deriving DecidableEq, Repr

/-- The operations of the Display Driver (R126–R136). Columns and rows are any integers, a text is its code points. -/
inductive DriverOp where
  | setBacklight (x : Bool)
  | setDisplayOn (x : Bool)
  | setCursor (x : Bool)
  | setBlink (x : Bool)
  | clear
  | home
  | setCursorPosition (col row : Int)
  | print (text : List Nat)
  deriving DecidableEq, Repr

/-- The host's Display Driver (R29, R31). -/
structure Driver where
  /-- `DRV_STATE` (R31) -/
  life : DrvState
  /-- DisplayState `backlight` (R29) -/
  backlight : Bool
  /-- DisplayState `displayOn` (R29) -/
  displayOn : Bool
  /-- DisplayState `cursorOn` (R29) -/
  cursorOn : Bool
  /-- DisplayState `blinkOn` (R29) -/
  blinkOn : Bool
  /-- the operation in progress (R118) -/
  job : Option Job
  /-- what the last operation returned (R118, R125) -/
  result : OpResult
  deriving DecidableEq, Repr

/-- What the host is asked to do next: present a raw request word, pass a command byte to SENDCMD, construct a driver
(R119), or run one of the driver's operations. -/
inductive HostInput where
  | give (c : Code)
  | construct
  | op (o : DriverOp)
  deriving DecidableEq, Repr

/-- Why a step stops with a fault. -/
inductive Fault where
  /-- Raised by a step that starts SetCursorPosition with a row outside 0..3 (R132, R146: "a fault of the caller"). Safe:
  the spec says that no successful run goes on from here. -/
  | rowIndex (row : Int)
  /-- Raised by a step of a driver that reads `RSP_STATUS = 3` (R22; U10: "A model that observes it is in `fault`"). Safe:
  NTX never writes 3, so no run from reset meets it. -/
  | responseThree
  deriving DecidableEq, Repr

/-- Why a step is refused. -/
inductive Refusal where
  /-- Raised by an arm of `exec` whose instruction has no meaning yet (none is left). Safe: nothing is claimed. -/
  | notModelled (mnemonic : String)
  /-- Raised by a step that starts a driver operation in a `DRV_STATE` other than Ready (R119, U7). Safe: the spec has the
  model refuse it. -/
  | driverNotReady
  /-- Raised by a step that starts SetCursorPosition with a column outside R133's domain (U5). Safe: the spec has the
  model refuse it. -/
  | columnOutsideDomain (col row : Int)
  /-- Raised by a step that starts Print of a character at or above 0x80 (R135, U6). Safe: the spec has the model refuse
  it. -/
  | textNotSevenBit
  deriving DecidableEq, Repr

/-- The whole system. -/
structure State where
  /-- the parameters of R8; no step changes them -/
  cfg : Params
  /-- the NTX block -/
  ntx : Ntx
  /-- the expander and the controller -/
  rcv : Receiver
  /-- the host's driver -/
  drv : Driver
  /-- the trace, oldest event first (R12) -/
  trace : List Event
  /-- a lower bound on the time since power-on: the sum of the completed delays, µs (R173); the model's own -/
  now : Nat
  /-- INPUT: the answers the bus port will give, in order (R46, U12) -/
  busIn : List BusAnswer
  /-- INPUT: what the host is asked to do, in order -/
  hostIn : List HostInput
  /-- INPUT: after how many event slots `rst` rises next, and after how many more each time after that (R65, R157, R158) -/
  rstIn : List Nat
  /-- `rst` has risen, and the host has not yet acted on it (R162) -/
  rstSeen : Bool
  deriving DecidableEq, Repr

/-- The reset values of NTX (R32, R157). `REQ` and `RSP_INFO` have none: DESIGN CHOICE, log 3. -/
def Ntx.reset : Ntx :=
  { bl := true, fsm := .idle, todo := [], req := 0, tmr := none, errs := false, rspStatus := 0, rspInfo := BusErr.first,
    rspValid := false, busWr := none }

/-- The receiver at power-on (R27, R28): UNKNOWN, and busy for at least 1000 ms. `LCD_PHASE` and the stored half have no
reset value: DESIGN CHOICE, log 3. -/
def Receiver.reset : Receiver :=
  { pins := none, mode := .unknown, phase := .high, high := 0, busyUntil := 1000000, quietUntil := 0,
    pulseEnd := 0, pairing := .lost, syncRow := [], setup := .missing, addr := none, entry := none, display := none, function := none,
    ddram := [], contentLost := false, executed := [], draws := 0 }

/-- The driver before construction (R29, R31). -/
def Driver.reset : Driver :=
  { life := .uninitialized, backlight := true, displayOn := false, cursorOn := false, blinkOn := false, job := none,
    result := .nothingYet }

/-- The system right after power-on reset (R32): nothing on the trace, no input given. -/
def State.reset : State :=
  { cfg := Params.default, ntx := Ntx.reset, rcv := Receiver.reset, drv := Driver.reset, trace := [], now := 0,
    busIn := [], hostIn := [], rstIn := [], rstSeen := false }

end Sys2Proof.Machine
end

