-- ==== Sys2Proof/Machine/Flags.lean ====
section
/-! DEFINITION. The status bits (R25): the response codes, the sticky error flag, and the signals the host sees (R62,
R63). NTX has no arithmetic flags. -/

namespace Sys2Proof.Machine

/-- `RSP_STATUS` = OK (R139). -/
def statusOk : BitVec 2 := 0#2

/-- `RSP_STATUS` = BUS_ERROR (R139). -/
def statusBusError : BitVec 2 := 1#2

/-- `RSP_STATUS` = ILLEGAL (R139). -/
def statusIllegal : BitVec 2 := 2#2

/-- `req_ready = 1` exactly when `FSM = IDLE` (R62). -/
def reqReady (n : Ntx) : Bool := n.fsm == .idle

/-- `rsp_status` (R63). -/
def rspStatusPort (n : Ntx) : BitVec 2 := n.rspStatus

/-- `rsp_info` (R63). -/
def rspInfoPort (n : Ntx) : BusErr := n.rspInfo

/-- `err_sticky` (R63). -/
def errSticky (n : Ntx) : Bool := n.errs

/-- `bus_wr_valid` (R64). -/
def Ntx.busWrValid (n : Ntx) : Bool := n.busWr.isSome

/-- `bus_wr_data` (R64): none outside a handshake, where NTX drives no byte (R16). -/
def Ntx.busWrData (n : Ntx) : Option Byte := n.busWr

/-- The end of a request (R63): the status is set, the response presented, and the sequencer is IDLE again. -/
def latchStatus (st : BitVec 2) (n : Ntx) : Ntx :=
  { n with rspStatus := st, rspValid := true, fsm := .idle, todo := [] }

/-- What a bus error records beside the status (R140): the bus's own value, and the sticky flag. -/
def latchBusError (e : BusErr) (n : Ntx) : Ntx := { n with rspInfo := e, errs := true }

/-- The result a bus answer stands for (R64): `ok` if `bus_wr_ok = 1`, otherwise `err(bus_wr_err)`. -/
def busResult (a : BusAnswer) : BusResult := if a.wrOk then .ok else .err a.wrErr

end Sys2Proof.Machine
end

