-- ==== Sys2Proof/Machine/Memory.lean ====
section
/-! DEFINITION. DDRAM as far as it is known (R41): a sorted list of (address, byte) pairs. Nothing in the machine reads it
(R42); the receiver writes it. An address that is not listed has no known content (log 4). -/

namespace Sys2Proof.Machine

/-- The known content of address `a`; `none` where nothing is known. -/
def Memory.read (a : Nat) : Memory → Option Byte
  | [] => none
  | (b, v) :: m => if a = b then some v else Memory.read a m

/-- Address `a` holds `v`; every other address is as before. -/
def Memory.write (a : Nat) (v : Byte) : Memory → Memory
  | [] => [(a, v)]
  | (b, u) :: m =>
    if a < b then (a, v) :: (b, u) :: m
    else if a = b then (a, v) :: m
    else (b, u) :: Memory.write a v m

/-- The addresses are at least `lo`, below 128 (R41: "7-bit addresses") and strictly rising. -/
def Memory.wfFrom (lo : Nat) : Memory → Bool
  | [] => true
  | (a, _) :: m => decide (lo ≤ a) && decide (a < 128) && Memory.wfFrom (a + 1) m

/-- The one canonical form. No listed byte equals what an unlisted address reads as, since that is no byte. -/
def Memory.wf (m : Memory) : Bool := Memory.wfFrom 0 m

end Sys2Proof.Machine
end

