-- ==== Sys2Proof/Machine/Operands.lean ====
section
/-! DEFINITION. The operand forms: control-line masks, the ControlByte, the nibbles of a byte, and the lines of one
enable pulse (R13, R68, R74, R91, R105). -/

namespace Sys2Proof.Machine

/-- The mask of the control line at expander bit `i` (R13: `RS`, `RW`, `E`, `BLM`). -/
def lineMask (i : Fin 4) : Byte := BitVec.twoPow 8 i.val

/-- `BLM` where the backlight is on, else 0x00: the overlay of R91, and the whole byte of SETBL (R75). -/
def backlightByte (p : Params) (on : Bool) : Byte := if on then lineMask p.blBit else 0x00#8

/-- `base` of R91: the operand ORed with the backlight overlay (R94). -/
def overlay (p : Params) (bl : Bool) (v : Byte) : Byte := v ||| backlightByte p bl

/-- The byte with E raised (R91). -/
def raiseE (p : Params) (v : Byte) : Byte := v ||| lineMask p.eBit

/-- R90: the operand has its E or its RW position set. -/
def illegalOperand (p : Params) (v : Byte) : Bool := v.getLsbD p.eBit.val || v.getLsbD p.rwBit.val

/-- `RS` for data, 0x00 for a command (R105). -/
def registerSelect (p : Params) (rs : Bool) : Byte := if rs then lineMask p.rsBit else 0x00#8

/-- `hi(B, rs)` of R105. -/
def hiNibble (p : Params) (b : Byte) (rs : Bool) : Byte := (b &&& 0xF0#8) ||| registerSelect p rs

/-- `lo(B, rs)` of R105. -/
def loNibble (p : Params) (b : Byte) (rs : Bool) : Byte := ((b <<< 4) &&& 0xF0#8) ||| registerSelect p rs

/-- `Delay(n)` with `n ≥ 1` (R113). -/
def delayLines (n : Nat) : List Line := [.startDelay n, .endDelay n]

/-- `nibble_tx(v)` of R91, with the settle write of R93 where `P_SETTLE` asks for it. -/
def pulseLines (p : Params) (bl : Bool) (v : Byte) : List Line :=
  (if p.settle then [.write (overlay p bl v)] else []) ++
    [.write (raiseE p (overlay p bl v))] ++ delayLines p.tEh ++
    [.write (overlay p bl v)] ++ delayLines p.tPost

/-- The two `nibble_tx` of a byte, high nibble first (R48, R106, R107). -/
def byteLines (p : Params) (bl : Bool) (b : Byte) (rs : Bool) : List Line :=
  pulseLines p bl (hiNibble p b rs) ++ pulseLines p bl (loNibble p b rs)

/-- `if N != 0: Delay(N)` of R112. -/
def waitLines (n : BitVec 24) : List Line := if n = 0#24 then [] else delayLines n.toNat

/-- A WRNIB of nibble 0x3 with RS = 0: one of the synchronisation nibbles of R121 and R166. -/
def isSyncNibble (p : Params) (v : Byte) : Bool := v.extractLsb' 4 4 == 3#4 && !v.getLsbD p.rsBit.val

/-- A WRNIB of nibble 0x2 with RS = 0: the last nibble of the synchronisation of R121. -/
def isSwitchNibble (p : Params) (v : Byte) : Bool := v.extractLsb' 4 4 == 2#4 && !v.getLsbD p.rsBit.val

/-- The bytes that Initialize sends as its configuration, in order (R122, R123). -/
def configBytes : List Byte := [0x28#8, 0x0C#8, 0x01#8, 0x06#8, 0x02#8]

/-- The data lines D7..D4 of an expander byte (R27, R74). -/
def dataLines (v : Byte) : Nibble := v.extractLsb' 4 4

/-- Ticks that last at least `n` µs: `ceil(n * 1000 / P_TICK_NS)` (R113). -/
def ticksFor (n : Nat) : Nat := (n * 1000 + Config.tickNsPred.val) / Config.tickNs

end Sys2Proof.Machine
end

