-- ==== Sys2Proof/Machine/Receiver.lean ====
section
/-! DEFINITION. The expander's outputs and the HD44780 behind them: the reference receiver of R27, R28 and R57–R60. What
the spec leaves open is a free value drawn by `draws` (log 2), or UNKNOWN (`none`, `LcdMode.unknown`). -/

namespace Sys2Proof.Machine

/-- Everything the controller's registers and DDRAM hold is UNKNOWN (R28, D35). -/
def Receiver.forget (r : Receiver) : Receiver :=
  { r with addr := none, entry := none, display := none, function := none, ddram := [] }

/-- The controller takes no transfer for at least `wait` µs from `now` (R28, R60). -/
def Receiver.setBusy (now wait : Nat) (r : Receiver) : Receiver :=
  { r with busyUntil := max r.busyUntil (now + wait) }

/-- A hazard was met (R60, R163 to R169): every later display content is any value. -/
def Receiver.loseContent (r : Receiver) : Receiver := { r.forget with contentLost := true, setup := .missing }

/-- A hazard was met that leaves `LCD_MODE <- UNKNOWN` too (R60, U16). -/
def Receiver.lose (r : Receiver) : Receiver :=
  { r.loseContent with mode := .unknown, pairing := .lost, syncRow := [] }

/-- A pulse or a transfer meets a busy controller (R60). How long it is then busy is not said; the longest wait DOC0 gives
for a command is taken, after a whole pulse (log 11). -/
def Receiver.meetBusy (p : Params) (now : Nat) (r : Receiver) : Receiver :=
  r.lose.setBusy now (p.tEh + p.tPost + 2000)

/-- ClearDisplay and ReturnHome: 2000 µs beyond the pulse's own wait before the next transfer (R60) and before the next
request that writes the bus at all (R164). -/
def Receiver.setQuiet (p : Params) (now : Nat) (r : Receiver) : Receiver :=
  { r.setBusy now (p.tPost + 2000) with quietUntil := max r.quietUntil (now + (p.tPost + 2000)) }

/-- The DDRAM address after a data write: one up in left-to-right mode (G9), UNKNOWN otherwise and past 0x7F. -/
def nextAddress (entry : Option EntryMode) (a : BitVec 7) : Option (BitVec 7) :=
  match entry with
  | some m => if m.leftToRight && a != 0x7F#7 then some (a + 1#7) else none
  | none => none

/-- A display-data byte (R58): it lands at the DDRAM address; where that is UNKNOWN, any content may have changed. -/
def Receiver.takeData (b : Byte) (r : Receiver) : Receiver :=
  match r.addr with
  | some a =>
    { r with
      ddram := if r.contentLost then [] else Memory.write a.toNat b r.ddram
      addr := nextAddress r.entry a }
  | none => { r with ddram := [] }

/-- ClearDisplay (R164). No rule says what it leaves: address and content are UNKNOWN, the flags are kept (log 10). -/
def Receiver.clearDisplay (p : Params) (now : Nat) (r : Receiver) : Receiver :=
  { r.setQuiet p now with addr := none, ddram := [] }

/-- ReturnHome (R164). No rule says what it leaves: the address is UNKNOWN, content and flags are kept (log 10). -/
def Receiver.returnHome (p : Params) (now : Nat) (r : Receiver) : Receiver :=
  { r.setQuiet p now with addr := none }

/-- EntryModeSet (R77). That it keeps the address, the content and the other flags is the model's choice (log 10). -/
def Receiver.entryModeSet (id s : Bool) (r : Receiver) : Receiver :=
  { r with entry := some { leftToRight := id, shift := s } }

/-- DisplayControl (R78). That it keeps the address, the content and the other flags is the model's choice (log 10). -/
def Receiver.displayControl (d c b : Bool) (r : Receiver) : Receiver :=
  { r with display := some { displayOn := d, cursorOn := c, blinkOn := b } }

/-- CursorShift: what it leaves is not said (R76): the address is UNKNOWN, content and flags are kept (log 10). -/
def Receiver.cursorShift (r : Receiver) : Receiver := { r with addr := none }

/-- FunctionSet (R79): `DL` chooses the framing, and 4-bit framing starts at the high half (R59). That it keeps the address,
the content and the other flags is the model's choice (log 10). -/
def Receiver.functionSet (dl n f : Bool) (r : Receiver) : Receiver :=
  { r with
    function := some { eightBit := dl, twoLine := n, tallFont := f }
    mode := if dl then .bit8 else .bit4
    phase := .high }

/-- SetCGRamAddr: excluded by DOC0 (R6, R76); later data goes to no known DDRAM address, and content and flags are kept
(log 10). -/
def Receiver.setCGRamAddr (r : Receiver) : Receiver := { r with addr := none }

/-- SetDDRamAddr (R76): the 7-bit DDRAM address. -/
def Receiver.setDDRamAddr (a : BitVec 7) (r : Receiver) : Receiver := { r with addr := some a }

/-- An instruction byte (R58): the command it names (R76). A byte with no name may change anything but the framing (log 15). -/
def Receiver.takeCommand (p : Params) (now : Nat) (b : Byte) (r : Receiver) : Receiver :=
  match decodeCommand b with
  | .noRow _ => r.forget
  | .instr i =>
    match i with
    | .clearDisplay => r.clearDisplay p now
    | .returnHome => r.returnHome p now
    | .entryModeSet id s => r.entryModeSet id s
    | .displayControl d c b => r.displayControl d c b
    | .cursorShift _ => r.cursorShift
    | .functionSet dl n f _ => r.functionSet dl n f
    | .setCGRamAddr _ => r.setCGRamAddr
    | .setDDRamAddr a => r.setDDRamAddr a
    | .wrnib _ => r
    | .sendcmd _ => r
    | .senddata _ => r
    | .setbl _ => r
    | .waitus _ => r
    | .illegal _ => r

/-- The controller executes a byte (R58). -/
def Receiver.executeByte (p : Params) (now : Nat) (rs : Bool) (b : Byte) (r : Receiver) : Receiver :=
  let r := { r with executed := r.executed ++ [LcdByte.mk rs b] }
  if rs then r.takeData b else r.takeCommand p now b

/-- A whole byte has arrived (R58, R59). What it leaves can be relied on only once Initialize has been run (R162). -/
def Receiver.takeByte (p : Params) (now : Nat) (rs : Bool) (b : Byte) (r : Receiver) : Receiver :=
  match r.setup with
  | .missing => (r.executeByte p now rs b).forget
  | .configuring _ => r.executeByte p now rs b
  | .complete => r.executeByte p now rs b

/-- An UNKNOWN controller is in one of the three framings, with any half stored (R59, U15). The nibble that it gets now may be
misaligned, so nothing is known of the display (U16). -/
def Receiver.settleMode (r : Receiver) : Receiver :=
  match r.mode with
  | .unknown =>
    { r.forget with
      mode := match Config.freeFraming r.draws with
        | .bit8 => .bit8
        | .bit4High => .bit4
        | .bit4Low => .bit4
      phase := match Config.freeFraming r.draws with
        | .bit8 => .high
        | .bit4High => .high
        | .bit4Low => .low
      high := (Config.freeByte r.draws).extractLsb' 0 4
      draws := r.draws + 1 }
  | .bit8 => r
  | .bit4 => r

/-- One transfer of a nibble to a controller whose framing is settled (R58, R59). -/
def Receiver.takeNibble (p : Params) (now : Nat) (rs : Bool) (n : Nibble) (r : Receiver) : Receiver :=
  match r.mode with
  | .bit8 =>
    Receiver.takeByte p now rs (n ++ (Config.freeByte r.draws).extractLsb' 0 4) { r with draws := r.draws + 1 }
  | .bit4 =>
    match r.phase with
    | .high => { r with high := n, phase := .low }
    | .low => Receiver.takeByte p now rs (r.high ++ n) { r with phase := .high }
  | .unknown => r

/-- One transfer: a falling edge of E that leaves the byte `v` on the pins (R57). It may come from a pulse, or, from UNKNOWN
pins, from any other write (R100, R163), after which the model takes the controller to be busy for T_POST too (log 11). The effect
of one that meets a busy controller is undefined (R60): that it completes no byte, so that `executed` stays as it was, is the
model's choice (log 11). -/
def Receiver.transfer (p : Params) (now : Nat) (v : Byte) (r : Receiver) : Receiver :=
  if now < r.busyUntil then r.meetBusy p now
  else
    (r.setBusy now p.tPost).settleMode.takeNibble p now (v.getLsbD p.rsBit.val) (dataLines v)

/-- Whether the write of `v` takes E from 1 to 0 (R57); from UNKNOWN pins, both are admitted (U14). -/
def Receiver.fallingEdge (p : Params) (v : Byte) (r : Receiver) : Bool :=
  !v.getLsbD p.eBit.val &&
    match r.pins with
    | some u => u.getLsbD p.eBit.val
    | none => Config.freeBit r.draws

/-- The expander's outputs become `v` in one update (R44), and the controller sees it. -/
def Receiver.observe (p : Params) (now : Nat) (v : Byte) (r : Receiver) : Receiver :=
  let next := { r with draws := r.draws + 1 }
  { (if r.fallingEdge p v then next.transfer p now v else next) with pins := some v }

/-- The pins and the controller's framing are UNKNOWN, and only Initialize makes it known again (R162; log 14). -/
def Receiver.unsettle (now : Nat) (r : Receiver) : Receiver :=
  { r with pins := none, mode := .unknown, pulseEnd := now, pairing := .lost, syncRow := [], setup := .missing }

/-- A write whose outcome is not known (R27, R47, R158): the outputs are any value, which the controller sees. From then on
pins, phase and mode may be anything (R144), and nothing is known of the display (D32; log 14). -/
def Receiver.observeLost (p : Params) (now : Nat) (r : Receiver) : Receiver :=
  (r.observe p now (Config.freeByte r.draws)).forget.unsettle now

/-- After a reset of NTX the model knows neither the pins nor the controller's framing (R158, R160; log 14). -/
def Receiver.afterNtxReset (now : Nat) (r : Receiver) : Receiver := r.unsettle now

/-- A request that makes pulses: WRNIB of an operand, the Display Driver's own in Initialize or not, or SENDCMD or SENDDATA
of a byte. -/
inductive PulseRequest where
  | nibble (v : Byte) (own : Bool)
  | byte (b : Byte) (rs : Bool)
  deriving DecidableEq, Repr

/-- The request is a WRNIB of one of the three synchronisation nibbles (R121). -/
def PulseRequest.isSync (p : Params) : PulseRequest → Bool
  | .nibble v _ => isSyncNibble p v
  | .byte _ _ => false

/-- The request is a WRNIB of the nibble that ends the synchronisation (R121). -/
def PulseRequest.isSwitch (p : Params) : PulseRequest → Bool
  | .nibble v _ => isSwitchNibble p v
  | .byte _ _ => false

/-- The request is Initialize's own. -/
def PulseRequest.isOwn : PulseRequest → Bool
  | .nibble _ own => own
  | .byte _ _ => false

/-- Where a nibble of a synchronisation leaves the pairing: within it, or, after its last, between two bytes. -/
def PulseRequest.pairing (p : Params) (q : PulseRequest) : Pairing := if q.isSync p then .syncing q.isOwn else .between

/-- Where the request leaves the pairing, read as a byte or as half of a WRNIB pair (R169); none if it is no such thing, or if its
first nibble is not the half of a byte that the controller expects (R50), as none is in 8-bit or UNKNOWN framing (U16). -/
def Receiver.nextPairing (p : Params) (q : PulseRequest) (r : Receiver) : Option Pairing :=
  match r.mode with
  | .unknown => none
  | .bit8 => none
  | .bit4 =>
    match q, r.pairing, r.phase with
    | .byte _ _, .between, .high => some .between
    | .nibble v false, .between, .high => some (.half (v.getLsbD p.rsBit.val))
    | .nibble v false, .half rs, .low => if v.getLsbD p.rsBit.val = rs then some .between else none
    | _, _, _ => none

/-- One of R166's waits was not kept, if this is a synchronisation: 4500 µs before the second and the third `WRNIB 0x3x`, 150 µs
after it. -/
def Receiver.hasty (p : Params) (now : Nat) (q : PulseRequest) (r : Receiver) : Bool :=
  if q.isSync p then !r.syncRow.isEmpty && decide (now < r.pulseEnd + 4500)
  else decide (3 ≤ r.syncRow.length) && decide (now < r.pulseEnd + 150)

/-- The first nibble of the Display Driver's own Initialize. -/
def Receiver.startsInitialize (q : PulseRequest) (r : Receiver) : Bool := q.isOwn && r.pairing != .syncing true

/-- The row of synchronisation nibbles with this request. A synchronisation begins where no byte is half sent (R169). -/
def Receiver.nextRow (p : Params) (now : Nat) (q : PulseRequest) (r : Receiver) : List SyncNibble :=
  if q.isSync p then
    (SyncNibble.mk (r.pairing == .lost || r.pairing == .between) (decide (r.pulseEnd + 1000000 ≤ now)) ::
      (if r.startsInitialize q || r.hasty p now q then [] else r.syncRow)).take 3
  else []

/-- The request is a nibble of a synchronisation that has kept to R121 and R166 so far. -/
def Receiver.synchronises (p : Params) (now : Nat) (q : PulseRequest) (r : Receiver) : Bool :=
  (r.nextRow p now q).any (·.first) || q.isSwitch p && !r.hasty p now q && r.syncRow[2]?.any (·.first)

/-- The controller has had, with this request, the nibbles that bring its framing back from any state (R124), although the trace
had broken R169 before them. -/
def Receiver.resynchronised (p : Params) (now : Nat) (q : PulseRequest) (r : Receiver) : Bool :=
  if q.isSync p then (r.nextRow p now q).length == 3
  else q.isSwitch p && !r.hasty p now q && decide (3 ≤ r.syncRow.length)

/-- How far the request takes Initialize (R122, R162): a byte of the configuration that comes in its turn is one step; any other
request with pulses within the configuration leaves Initialize unfinished. -/
def Receiver.nextSetup (q : PulseRequest) (r : Receiver) : Setup :=
  match r.setup with
  | .missing => .missing
  | .complete => .complete
  | .configuring left =>
    match q, left with
    | .byte b false, [c] => if b = c then .complete else .missing
    | .byte b false, c :: rest => if b = c then .configuring rest else .missing
    | _, _ => .missing

/-- How far the last nibble of a synchronisation takes Initialize (R162): to the configuration, if the 1000 ms wait came first; a
controller that was not lost needs none of it. -/
def Receiver.syncedSetup (r : Receiver) : Setup :=
  match r.setup with
  | .complete => .complete
  | .missing => if r.syncRow[2]?.any (·.waited) then .configuring configBytes else .missing
  | .configuring _ => if r.syncRow[2]?.any (·.waited) then .configuring configBytes else .missing

/-- What the checks carry to the next request: the pairing, the row, how much of Initialize has been run, and the time of the
pulse. -/
def Receiver.note (p : Params) (now : Nat) (pairing : Pairing) (row : List SyncNibble) (setup : Setup) (r : Receiver) :
    Receiver :=
  { r with pulseEnd := now + (p.tEh + p.tPost), pairing := pairing, syncRow := row, setup := setup }

/-- A nibble of a synchronisation is noted. -/
def Receiver.noteSync (p : Params) (now : Nat) (q : PulseRequest) (row : List SyncNibble) (r : Receiver) : Receiver :=
  r.note p now (q.pairing p) row (if q.isSync p then r.nextSetup q else r.syncedSetup)

/-- A request that makes pulses starts: the checks of R161, R164, R166 and R169. The trace keeps to R166 and R169 as long as its
nibbles can be read as bytes, WRNIB pairs and synchronisations; once they can not, it has broken them, and the state is undefined
(logs 11, 16). The nibble may then be the first of an Initialize. -/
def Receiver.beginPulse (p : Params) (now : Nat) (q : PulseRequest) (r : Receiver) : Receiver :=
  let row := r.nextRow p now q
  let startsHere := row.head?.toList.map fun n => { n with first := true }
  if now < max r.busyUntil r.quietUntil then (r.meetBusy p now).note p now .lost [] .missing
  else
    match r.nextPairing p q with
    | some u => r.note p now u row (r.nextSetup q)
    | none =>
      if r.synchronises p now q then r.noteSync p now q row
      else if r.hasty p now q then (r.meetBusy p now).note p now .lost [] .missing
      else if r.resynchronised p now q then r.loseContent.noteSync p now q (startsHere ++ row.tail)
      else if q.isSync p then r.lose.noteSync p now q startsHere
      else r.lose.note p now .lost [] .missing

/-- SETBL starts: the check of R164, which binds every request that writes the bus. -/
def Receiver.beginRefresh (now : Nat) (r : Receiver) : Receiver := if now < r.quietUntil then r.lose else r

end Sys2Proof.Machine
end

