-- ==== Sys2Proof/Machine/Ops.lean ====
section
/-! DEFINITION. The named operations of the machine: accepting a request, its bus writes and delays, the two ways it can
be raised out of, its response, and reset (R11, R62–R64, R113, R140, R141, R157, R158). -/

namespace Sys2Proof.Machine

/-- One event slot passes on the way to a scheduled reset. -/
def tick (s : State) : State := { s with rstIn := s.rstIn.modifyHead (· - 1) }

/-- A request is accepted (R62): `REQ <- req_data`, `FSM <- BUSY`, `rsp_valid <- 0`. -/
def accept (w : Word) (s : State) : State :=
  { s with ntx := { s.ntx with req := w, fsm := .busy, rspValid := false } }

/-- The end of a request (R63). -/
def respond (st : BitVec 2) (s : State) : State := { s with ntx := latchStatus st s.ntx }

/-- `raise Illegal()` (R141): no state changes but the response. -/
def raiseIllegal (s : State) : State := respond statusIllegal s

/-- `raise BusError(e)` (R140): `RSP_INFO <- e`, `ERRS <- 1`, and the request ends. -/
def raiseBusError (e : BusErr) (s : State) : State :=
  respond statusBusError { s with ntx := latchBusError e s.ntx }

/-- NTX holds `bus_wr_valid` and `bus_wr_data` and waits, with no time bound (R64, R145). `todo` begins with the write. -/
def awaitBus (v : Byte) (todo : List Line) (s : State) : State :=
  { s with ntx := { s.ntx with todo := todo, busWr := some v } }

/-- The write of `v` is answered (R64): the handshake is over, nothing is kept of its byte (R16), and the event goes on the
trace (R46). -/
def completeWrite (v : Byte) (r : BusResult) (s : State) : State :=
  { s with ntx := { s.ntx with busWr := none }, trace := s.trace ++ [.write v r] }

/-- A write that returned `ok`: the outputs are `v` (R27, R44). -/
def writeOk (v : Byte) (s : State) : State :=
  { completeWrite v .ok s with rcv := s.rcv.observe s.cfg s.now v }

/-- A write that returned `err(e)`: the outputs are UNKNOWN (R47), and the request ends here (R95, R140). -/
def writeErr (v : Byte) (e : BusErr) (s : State) : State :=
  raiseBusError e { completeWrite v (.err e) s with rcv := s.rcv.observeLost s.cfg s.now }

/-- The I2C address an event goes to: every bus write goes to the one expander, at `P_EXP_ADDR` (R41, R64, R153). -/
def busAddress (e : Event) : Option (BitVec 7) :=
  match e with
  | .write _ _ => some Config.expAddr
  | .delay _ => none

/-- The start of `Delay(n)` (R113): the event, and the timer loaded. -/
def startDelay (n : Nat) (s : State) : State :=
  { s with ntx := { s.ntx with tmr := some (ticksFor n) }, trace := s.trace ++ [.delay n] }

/-- The end of `Delay(n)` (R113): a loaded timer has counted down to 0, which took at least `n` µs. -/
def endDelay (n : Nat) (s : State) : State :=
  match s.ntx.tmr with
  | some _ => { s with ntx := { s.ntx with tmr := none }, now := s.now + n }
  | none => s

/-- Reset of NTX (R157): its state, not that of the expander, the controller or the host (R160), which sees it (R162). The
outcome of a bus write in progress is lost (R158). -/
def resetNtx (s : State) : State :=
  { s with
    ntx := Ntx.reset
    rcv := (if s.ntx.busWrValid then s.rcv.observeLost s.cfg s.now else s.rcv).afterNtxReset s.now
    rstIn := s.rstIn.tail
    rstSeen := true }

/-- Reset in the middle of a line of a request (R158): the request is abandoned, with no response and no later event. -/
def abandon (l : Line) (s : State) : State :=
  match l with
  | .write v => resetNtx (awaitBus v [] s)
  | .startDelay _ => resetNtx s
  | .endDelay _ => resetNtx s

/-- The rest of a request's pseudocode, line by line (R11, R53), as far as the bus has answered: to its response, to its
first failing write, to a reset, or to a write that the bus has not answered. -/
def run : List Line → State → State
  | [], s => respond statusOk s
  | l :: ls, s =>
    match s.rstIn with
    | 0 :: _ => abandon l s
    | _ =>
      match l with
      | .write v =>
        match s.busIn with
        | [] => awaitBus v (.write v :: ls) (tick s)
        | a :: as =>
          match busResult a with
          | .ok => run ls (writeOk v { tick s with busIn := as })
          | .err e => writeErr v e { tick s with busIn := as }
      | .startDelay n => run ls (startDelay n (tick s))
      | .endDelay n => run ls (endDelay n (tick s))

/-- A request word `w` is given to NTX: in IDLE it is accepted and `body` runs; in BUSY it is not taken (R18, R62). -/
def giveRequest (w : Word) (body : State → State) (s : State) : State :=
  match s.ntx.fsm with
  | .idle => body (accept w s)
  | .busy => s

/-- A request that makes pulses starts (R161, R164, R166, R169). -/
def beginPulse (q : PulseRequest) (s : State) : State := { s with rcv := s.rcv.beginPulse s.cfg s.now q }

/-- A SETBL starts (R164). -/
def beginRefresh (s : State) : State := { s with rcv := s.rcv.beginRefresh s.now }

/-- The body of SENDCMD and SENDDATA (R106, R107). -/
def sendByteBody (b : Byte) (rs : Bool) (s : State) : State :=
  run (byteLines s.cfg s.ntx.bl b rs) (beginPulse (.byte b rs) s)

/-- The host passes the command byte of `i` to SENDCMD (R76, R81). -/
def sendCommand (i : Instr) (s : State) : State :=
  giveRequest (encodeRequest i) (sendByteBody ((encodeCommand i).getD 0x00#8) false) s

/-- NTX, BUSY with a write outstanding, looks again for the bus's answer (R64, R145). -/
def resume (s : State) : State := run s.ntx.todo s

/-- The system with code `c` as the next thing the host gives NTX: NTX IDLE, no driver operation in progress, no reset
scheduled or left to act on, `c` first in the host's queue, and six more writes answered `ok`, which is as many as a
request makes (R43). -/
def placeCode (c : Code) (s : State) : State :=
  { s with
    ntx := { s.ntx with fsm := .idle, todo := [], tmr := none, busWr := none }
    drv := { s.drv with job := none }
    hostIn := .give c :: s.hostIn
    busIn := s.busIn ++ List.replicate 6 { wrOk := true, wrErr := BusErr.first }
    rstIn := []
    rstSeen := false }

end Sys2Proof.Machine
end

