-- ==== Sys2Proof/Machine/CommandEncoder.lean ====
section
/-! DEFINITION. The command/data splitter: SENDCMD and SENDDATA (41_command_encoder.md). -/

namespace Sys2Proof.Machine

/-- SENDCMD `B` (R106): both nibbles with RS = 0. -/
def execSendcmd (b : Byte) (s : State) : Host.Outcome State Fault Refusal :=
  .next (giveRequest (encodeRequest (.sendcmd b)) (sendByteBody b false) s)

/-- SENDDATA `B` (R107): both nibbles with RS = 1. -/
def execSenddata (b : Byte) (s : State) : Host.Outcome State Fault Refusal :=
  .next (giveRequest (encodeRequest (.senddata b)) (sendByteBody b true) s)

end Sys2Proof.Machine
end

