-- ==== Sys2Proof/Machine/DelayTimer.lean ====
section
/-! DEFINITION. The delay timer's request: WAITUS (42_delay_timer.md). -/

namespace Sys2Proof.Machine

/-- WAITUS `N` (R112): `Delay(N)`, or nothing for `N = 0`; no bus write. -/
def execWaitus (n : BitVec 24) (s : State) : Host.Outcome State Fault Refusal :=
  .next (giveRequest (encodeRequest (.waitus n)) (run (waitLines n)) s)

end Sys2Proof.Machine
end

