-- ==== Sys2Proof/Machine/IllegalRequest.lean ====
section
/-! DEFINITION. A request word that is none of the five requests: ILLEGAL (R72, R141). -/

namespace Sys2Proof.Machine

/-- ILLEGAL (R141): the word is accepted, no event is emitted, and the response is ILLEGAL. -/
def execIllegal (w : Word) (s : State) : Host.Outcome State Fault Refusal :=
  .next (giveRequest (encodeRequest (.illegal w)) raiseIllegal s)

end Sys2Proof.Machine
end

