-- ==== Sys2Proof/Machine/LcdCommands.lean ====
section
/-! DEFINITION. The HD44780 command bytes of R76, each "carried by SENDCMD; not an NTX request" (spec/opcode_table.json):
the host passes the byte to SENDCMD, which splits it like any other (R106), and the controller, if it is in step, executes
it (R58; `Receiver.takeCommand`). Log 9. -/

namespace Sys2Proof.Machine

/-- ClearDisplay, 0x01 (R76). -/
def execClearDisplay (s : State) : Host.Outcome State Fault Refusal := .next (sendCommand .clearDisplay s)

/-- ReturnHome, 0x02 (R76). -/
def execReturnHome (s : State) : Host.Outcome State Fault Refusal := .next (sendCommand .returnHome s)

/-- EntryModeSet, 0x04 to 0x07 (R77). -/
def execEntryModeSet (id sh : Bool) (s : State) : Host.Outcome State Fault Refusal :=
  .next (sendCommand (.entryModeSet id sh) s)

/-- DisplayControl, 0x08 to 0x0F (R78, R127). -/
def execDisplayControl (d c b : Bool) (s : State) : Host.Outcome State Fault Refusal :=
  .next (sendCommand (.displayControl d c b) s)

/-- CursorShift, 0x10 to 0x1F (R76). -/
def execCursorShift (x : BitVec 4) (s : State) : Host.Outcome State Fault Refusal :=
  .next (sendCommand (.cursorShift x) s)

/-- FunctionSet, 0x20 to 0x3F (R79). -/
def execFunctionSet (dl n f : Bool) (low : BitVec 2) (s : State) : Host.Outcome State Fault Refusal :=
  .next (sendCommand (.functionSet dl n f low) s)

/-- SetCGRamAddr, 0x40 to 0x7F (R76). -/
def execSetCGRamAddr (a : BitVec 6) (s : State) : Host.Outcome State Fault Refusal :=
  .next (sendCommand (.setCGRamAddr a) s)

/-- SetDDRamAddr, 0x80 to 0xFF (R76, R133). -/
def execSetDDRamAddr (a : BitVec 7) (s : State) : Host.Outcome State Fault Refusal :=
  .next (sendCommand (.setDDRamAddr a) s)

end Sys2Proof.Machine
end

