-- ==== Sys2Proof/Machine/NibbleTransmitter.lean ====
section
/-! DEFINITION. The nibble transmitter: WRNIB and SETBL (40_nibble_transmitter.md). -/

namespace Sys2Proof.Machine

/-- The WRNIB as the receiver's checks of its host see it: it is Initialize's own while the driver runs that (R119, R121). -/
def nibbleRequest (v : Byte) (s : State) : PulseRequest := .nibble v (s.drv.life == .initializing)

/-- WRNIB (R90, R91): an operand with E or RW set is ILLEGAL, before any traffic; else one enable pulse. -/
def wrnibBody (v : Byte) (s : State) : State :=
  if illegalOperand s.cfg v then raiseIllegal s
  else run (pulseLines s.cfg s.ntx.bl v) (beginPulse (nibbleRequest v s) s)

/-- WRNIB `V` (R91). -/
def execWrnib (v : Byte) (s : State) : Host.Outcome State Fault Refusal :=
  .next (giveRequest (encodeRequest (.wrnib v)) (wrnibBody v) s)

/-- SETBL (R97, R98): `BL <- X` first, then one raw byte with the backlight bit only, and no delay (R99). -/
def setblBody (x : Bool) (s : State) : State :=
  run [.write (backlightByte s.cfg x)] (beginRefresh { s with ntx := { s.ntx with bl := x } })

/-- SETBL `X` (R97). -/
def execSetbl (x : Bool) (s : State) : Host.Outcome State Fault Refusal :=
  .next (giveRequest (encodeRequest (.setbl x)) (setblBody x) s)

end Sys2Proof.Machine
end

