-- ==== Sys2Proof/Machine/Dispatch.lean ====
section
/-! DEFINITION. The one dispatch: each instruction to its meaning. -/

namespace Sys2Proof.Machine

def exec (i : Instr) (s : State) : Host.Outcome State Fault Refusal :=
  match i with
  | .wrnib v => Sys2Proof.Machine.execWrnib v s
  | .sendcmd b => Sys2Proof.Machine.execSendcmd b s
  | .senddata b => Sys2Proof.Machine.execSenddata b s
  | .setbl x => Sys2Proof.Machine.execSetbl x s
  | .waitus n => Sys2Proof.Machine.execWaitus n s
  | .illegal w => Sys2Proof.Machine.execIllegal w s
  | .clearDisplay => Sys2Proof.Machine.execClearDisplay s
  | .returnHome => Sys2Proof.Machine.execReturnHome s
  | .entryModeSet id sh => Sys2Proof.Machine.execEntryModeSet id sh s
  | .displayControl d c b => Sys2Proof.Machine.execDisplayControl d c b s
  | .cursorShift x => Sys2Proof.Machine.execCursorShift x s
  | .functionSet dl n f low => Sys2Proof.Machine.execFunctionSet dl n f low s
  | .setCGRamAddr a => Sys2Proof.Machine.execSetCGRamAddr a s
  | .setDDRamAddr a => Sys2Proof.Machine.execSetDDRamAddr a s

end Sys2Proof.Machine
end

