-- ==== Sys2Proof/Machine/HostDriver.lean ====
section
/-! DEFINITION. The host: DOC0's Display Driver as request sequences (44_host_sequences.md), and what the host does next
when NTX is IDLE (log 13). -/

namespace Sys2Proof.Machine

/-- The DisplayControl composite `dc` of all three flags (R127). -/
def displayControlByte (d : Driver) : Byte :=
  0x08#8 ||| (if d.displayOn then 0x04#8 else 0x00#8) ||| (if d.cursorOn then 0x02#8 else 0x00#8) |||
    (if d.blinkOn then 0x01#8 else 0x00#8)

/-- The driver line that issues request `i` (R80). -/
def issueLine (i : Instr) : HostLine := .issue (encodeRequest i)

/-- Clear() (R130). -/
def clearLines : List HostLine := [issueLine (.sendcmd 0x01#8), issueLine (.waitus 2000#24)]

/-- Home() (R131). -/
def homeLines : List HostLine := [issueLine (.sendcmd 0x02#8), issueLine (.waitus 2000#24)]

/-- The synchronisation (R121). -/
def syncLines : List HostLine :=
  [issueLine (.wrnib 0x30#8), issueLine (.waitus 4500#24), issueLine (.wrnib 0x30#8), issueLine (.waitus 4500#24),
    issueLine (.wrnib 0x30#8), issueLine (.waitus 150#24), issueLine (.wrnib 0x20#8)]

/-- The configuration (R122). -/
def configLines : List HostLine :=
  [issueLine (.sendcmd 0x28#8), .setDisplayOn true, .sendDisplayControl] ++ clearLines ++
    [issueLine (.sendcmd 0x06#8)] ++ homeLines

/-- Initialize (R120–R123). -/
def initializeLines (p : Params) : List HostLine :=
  (if p.initBlWrite then [issueLine (.setbl true)] else []) ++ [issueLine (.waitus 1000000#24)] ++ syncLines ++ configLines

/-- The row's base in `RowOffsetTable` (R30, R132); none for a row outside 0..3. -/
def rowBase : Int → Option Nat
  | .ofNat row => Config.rowOffsetTable[row]?
  | .negSucc _ => none

/-- What the host does next while NTX is IDLE. -/
inductive Turn where
  /-- nothing: the host has nothing to do, or has no response yet -/
  | wait (s : State)
  /-- a step of the host's own, with no request -/
  | act (s : State)
  /-- the host gives NTX this code -/
  | give (c : Code) (s : State)
  /-- the run is in error -/
  | fault (f : Fault)
  /-- the spec has the model refuse it -/
  | refuse (r : Refusal)
  deriving DecidableEq, Repr

/-- The host takes up an operation: its flags written first, then its lines (R126, R128). -/
def startJob (lines : List HostLine) (d : Driver) (s : State) : Turn :=
  .act { s with drv := { d with job := some { todo := lines, awaiting := false } } }

/-- Construction of a driver (R119), or of a new one in its place (D32): DisplayState at its defaults,
`DRV_STATE <- Initializing`, then Initialize. R120 takes it that `BL = 1`. Where `BL = 0`, after a SETBL 0, the spec says nothing;
it is the model's choice that only `P_INIT_BL_WRITE` brings `BL` into line with the flag (log 13). -/
def construct (s : State) : Turn :=
  startJob (initializeLines s.cfg) { Driver.reset with life := .initializing } s

/-- SetCursorPosition (R132, R133): the row check first, then the column's domain. -/
def setCursorPosition (col row : Int) (s : State) : Turn :=
  match rowBase row with
  | none => .fault (.rowIndex row)
  | some base =>
    if 0 ≤ col ∧ base + col ≤ 0x7F then
      startJob [issueLine (.sendcmd (0x80#8 ||| BitVec.ofNat 8 (base + col.toNat)))] s.drv s
    else .refuse (.columnOutsideDomain col row)

/-- Print (R135): one SENDDATA a character. -/
def print (text : List Nat) (s : State) : Turn :=
  if text.all (· < 0x80) then startJob (text.map fun c => issueLine (.senddata (BitVec.ofNat 8 c))) s.drv s
  else .refuse .textNotSevenBit

/-- A driver operation starts (R126–R135); it requires `DRV_STATE = Ready` (R119). -/
def startOp (o : DriverOp) (s : State) : Turn :=
  if s.drv.life = .ready then
    match o with
    | .setBacklight x => startJob [issueLine (.setbl x)] { s.drv with backlight := x } s
    | .setDisplayOn x => startJob [.sendDisplayControl] { s.drv with displayOn := x } s
    | .setCursor x => startJob [.sendDisplayControl] { s.drv with cursorOn := x } s
    | .setBlink x => startJob [.sendDisplayControl] { s.drv with blinkOn := x } s
    | .clear => startJob clearLines s.drv s
    | .home => startJob homeLines s.drv s
    | .setCursorPosition col row => setCursorPosition col row s
    | .print text => print text s
  else .refuse .driverNotReady

/-- The operation is over: it returns to its caller; Initialize makes the driver Ready (R119). -/
def finishJob (s : State) : Turn :=
  .act { s with drv := { s.drv with
    life := if s.drv.life = .initializing then .ready else s.drv.life
    job := none
    result := .ok } }

/-- A request of the operation ended in an error (R118): no further request; Initialize fails the driver (R125). -/
def failJob (s : State) : Turn :=
  .act { s with drv := { s.drv with
    life := if s.drv.life = .initializing then .failed else s.drv.life
    job := none
    result := .failed (rspStatusPort s.ntx) (rspInfoPort s.ntx) } }

/-- The next line of the operation in progress. -/
def continueJob (todo : List HostLine) (s : State) : Turn :=
  match todo with
  | [] => finishJob s
  | .issue w :: rest => .give (.request w) { s with drv := { s.drv with job := some { todo := rest, awaiting := true } } }
  | .setDisplayOn x :: rest =>
    .act { s with drv := { s.drv with displayOn := x, job := some { todo := rest, awaiting := false } } }
  | .sendDisplayControl :: rest =>
    .give (.request (encodeRequest (.sendcmd (displayControlByte s.drv))))
      { s with drv := { s.drv with job := some { todo := rest, awaiting := true } } }

/-- The response to a request of the operation is read (R118). ILLEGAL is treated like BUS_ERROR. -/
def readResponse (todo : List HostLine) (s : State) : Turn :=
  if rspStatusPort s.ntx = statusOk then continueJob todo s
  else if rspStatusPort s.ntx = 3#2 then .fault .responseThree
  else failJob s

/-- The next thing the host is asked to do, when it is free to do it. -/
def takeInput (s : State) : Turn :=
  match s.hostIn with
  | [] => .wait s
  | .give c :: rest => .give c { s with hostIn := rest }
  | .construct :: rest => construct { s with hostIn := rest }
  | .op o :: rest => startOp o { s with hostIn := rest }

/-- After a reset of NTX the host brings `BL`, now 1, into line with its own flag (R162). -/
def realignLines (d : Driver) : List HostLine := if d.backlight then [] else [issueLine (.setbl false)]

/-- The driver once the host has seen that NTX was reset. An operation whose response the reset took away is over, and a
construction has then failed. One that had no request out goes on, with the realignment before its own requests, in one job: a
bus error on the realigning `SETBL 0` then ends the operation with that error, and its own requests are not issued. All this is
the model's choice (log 13). -/
def Driver.afterReset (d : Driver) : Driver :=
  match d.job with
  | none =>
    { d with job := if d.backlight then none else some { todo := realignLines d, awaiting := false } }
  | some j =>
    if j.awaiting then
      { d with
        life := if d.life = .initializing then .failed else d.life
        job := if d.backlight then none else some { todo := realignLines d, awaiting := false }
        result := .lost }
    else { d with job := some { todo := realignLines d ++ j.todo, awaiting := false } }

/-- The host acts on a reset of NTX (R162). -/
def noticeReset (s : State) : Turn := .act { s with drv := s.drv.afterReset, rstSeen := false }

/-- The host's turn: a reset first (R162); then one operation at a time (R138), one request at a time (R118). -/
def hostTurn (s : State) : Turn :=
  if s.rstSeen then noticeReset s
  else
    match s.drv.job with
    | none => takeInput s
    | some j =>
      if j.awaiting then
        if s.ntx.rspValid then readResponse j.todo s else .wait s
      else continueJob j.todo s

end Sys2Proof.Machine
end

