-- ==== Sys2Proof/Machine/Step.lean ====
section
/-! DEFINITION. One step: a reset, more of a request that waits for the bus, or the host's turn. -/

namespace Sys2Proof.Machine

/-- NTX is given a code: the instruction it decodes to is executed (R73). A command byte of no row of R76 is passed to SENDCMD
like any other: NTX does not interpret it (R76, R106; log 9). -/
def runCode (c : Code) (s : State) : Host.Outcome State Fault Refusal :=
  match decode s.cfg c with
  | .instr i => exec i s
  | .noRow b => exec (.sendcmd b) s

/-- What the host's turn comes to. -/
def runTurn (t : Turn) : Host.Outcome State Fault Refusal :=
  match t with
  | .wait s => .next s
  | .act s => .next s
  | .give c s => runCode c s
  | .fault f => .fault f
  | .refuse r => .refused r

/-- One step of the system. A step with NTX IDLE is one slot on the way to a reset (log 1). -/
def step (s : State) : Host.Outcome State Fault Refusal :=
  match s.rstIn with
  | 0 :: _ => .next (resetNtx s)
  | _ =>
    match s.ntx.fsm with
    | .busy => .next (resume s)
    | .idle => runTurn (hostTurn (tick s))

/-- `s` with the opcode-table word `w` as the next code the host gives NTX (log 8). -/
def State.withFetchWord (s : State) (nbits w : Nat) : State := placeCode (tableCode nbits w) s

end Sys2Proof.Machine
end

