-- ==== Sys2Proof/Machine/Assembler.lean ====
section
/-! DEFINITION. The assembler of R80 and R81, from a parsed line (a mnemonic and its operands as numbers) to requests
(log 17). -/

namespace Sys2Proof.Machine

/-- One line of a source: a request of R80, or a pseudo-instruction of R81. R81 does not bound DISPCTL's three operands; that
each is 0 or 1 here, a flag of R78, is the model's choice (log 17). -/
inductive SourceLine where
  | wrnib (v : Nat)
  | sendcmd (b : Nat)
  | senddata (b : Nat)
  | setbl (x : Nat)
  | waitus (n : Nat)
  | clear
  | home
  | dispctl (d c b : Bool)
  | setddram (a : Nat)
  | putc (c : Nat)
  | sync8
  | go4
  | waitms (m : Nat)
  deriving DecidableEq, Repr

/-- `WAITUS n` (R80): `n` fits `P_WAIT_BITS`, which is 24 by default, and `ARG`. -/
def assembleWait (p : Params) (n : Nat) : Option (List Instr) :=
  if n < 2 ^ p.waitBits ∧ n < 2 ^ 24 then some [.waitus (BitVec.ofNat 24 n)] else none

/-- `WRNIB v` (R80): `v` fits 8 bits and leaves the E and the RW position 0. -/
def assembleNibble (p : Params) (v : Nat) : Option (List Instr) :=
  if v < 2 ^ 8 && !illegalOperand p (BitVec.ofNat 8 v) then some [.wrnib (BitVec.ofNat 8 v)] else none

/-- The requests a line stands for; none is an assembly error: an operand that does not fit (R80). -/
def assemble (p : Params) : SourceLine → Option (List Instr)
  | .wrnib v => assembleNibble p v
  | .sendcmd b => if b < 2 ^ 8 then some [.sendcmd (BitVec.ofNat 8 b)] else none
  | .senddata b => if b < 2 ^ 8 then some [.senddata (BitVec.ofNat 8 b)] else none
  | .setbl x => if x < 2 then some [.setbl (x == 1)] else none
  | .waitus n => assembleWait p n
  | .clear => (assembleWait p 2000).map (.sendcmd 0x01#8 :: ·)
  | .home => (assembleWait p 2000).map (.sendcmd 0x02#8 :: ·)
  | .dispctl d c b => some [.sendcmd (0b00001#5 ++ (BitVec.ofBool d ++ (BitVec.ofBool c ++ BitVec.ofBool b)))]
  | .setddram a => if a ≤ 0x7F then some [.sendcmd (0x80#8 ||| BitVec.ofNat 8 a)] else none
  | .putc c => if c ≤ 0x7F then some [.senddata (BitVec.ofNat 8 c)] else none
  | .sync8 => assembleNibble p 0x30
  | .go4 => assembleNibble p 0x20
  | .waitms m => assembleWait p (m * 1000)

end Sys2Proof.Machine
end

