-- ==== Sys2Proof/Safety.lean ====
section
/-! DEFINITION. The terms in which claims are stated: the events a request should make, bus answers that are all `ok`, the
bytes that keep RW low, and the invariant of the machine. -/

namespace Sys2Proof.Machine

/-- The next `n` bus writes are answered `ok`. -/
def okAnswers : Nat → List BusAnswer → Bool
  | 0, _ => true
  | _ + 1, [] => false
  | n + 1, a :: as => a.wrOk && okAnswers n as

/-- How many writes one enable pulse makes: two, or three with the settle write (R91, R93). -/
def pulseWrites (p : Params) : Nat := if p.settle then 3 else 2

/-- The trace of one enable pulse with every write `ok` (R91, R93). -/
def pulseEvents (p : Params) (bl : Bool) (v : Byte) : List Event :=
  (if p.settle then [.write (overlay p bl v) .ok] else []) ++
    [.write (raiseE p (overlay p bl v)) .ok, .delay p.tEh, .write (overlay p bl v) .ok, .delay p.tPost]

/-- The trace of SENDCMD and SENDDATA with every write `ok` (R106, R107). -/
def byteEvents (p : Params) (bl : Bool) (b : Byte) (rs : Bool) : List Event :=
  pulseEvents p bl (hiNibble p b rs) ++ pulseEvents p bl (loNibble p b rs)

/-- What the receiver sees of one enable pulse that starts at time `now` with every write `ok`. -/
def Receiver.seePulse (p : Params) (now : Nat) (bl : Bool) (v : Byte) (r : Receiver) : Receiver :=
  let r := if p.settle then r.observe p now (overlay p bl v) else r
  (r.observe p now (raiseE p (overlay p bl v))).observe p (now + p.tEh) (overlay p bl v)

/-- NTX is IDLE and no reset is scheduled: the next request is accepted and runs undisturbed. -/
abbrev State.Free (s : State) : Prop := s.ntx.fsm = .idle ∧ s.rstIn = []

/-- Besides, the host has no reset to act on and no driver operation in progress, so that it takes up the next thing it is
asked. -/
abbrev State.HostFree (s : State) : Prop := s.Free ∧ s.rstSeen = false ∧ s.drv.job = none

/-- No reset is due, NTX is IDLE, and the host has no reset to act on: the host goes on with what it does. -/
abbrev State.HostsTurn (s : State) : Prop := s.ntx.fsm = .idle ∧ s.rstIn.head? ≠ some 0 ∧ s.rstSeen = false

/-- The driver is Ready (R119) and is asked to run `o` next. -/
abbrev State.Asked (s : State) (o : DriverOp) : Prop :=
  s.HostFree ∧ s.drv.life = .ready ∧ s.hostIn.head? = some (.op o)

/-- A use of the driver that the spec does not define (R132, R133, R135, R146): a row outside 0..3, a column outside the
domain, a text that is not 7-bit. -/
def DriverOp.misused : DriverOp → Bool
  | .setBacklight _ => false
  | .setDisplayOn _ => false
  | .setCursor _ => false
  | .setBlink _ => false
  | .clear => false
  | .home => false
  | .setCursorPosition col row =>
    !decide (0 ≤ row ∧ row ≤ 3 ∧ 0 ≤ col ∧ ([0x00, 0x40, 0x14, 0x54].getD row.toNat 0 : Int) + col ≤ 0x7F)
  | .print text => text.any (0x80 ≤ ·)

/-- E is known to be low at the expander, so that a write of a byte with E low makes no falling edge (R57). -/
abbrev State.ELow (s : State) : Prop := s.rcv.pins.any (fun u => !u.getLsbD s.cfg.eBit.val) = true

/-- The controller is in step (R50, R58): E low, 4-bit framing, the high half of a byte expected, nothing left of the waits that
R60 and R164 ask for, and the host between two bytes, with no synchronisation under way; a `WRNIB 0x3x` may have been the second
half of the last byte. Initialize has been run (R162). -/
abbrev State.InStep (s : State) : Prop :=
  s.ELow ∧ s.rcv.mode = .bit4 ∧ s.rcv.phase = .high ∧ s.rcv.busyUntil ≤ s.now ∧ s.rcv.quietUntil ≤ s.now ∧
    s.rcv.pairing = .between ∧ s.rcv.syncRow.length ≤ 1 ∧ s.rcv.setup = .complete

/-- The events before write number `n`, counted from 0. -/
def untilWrite : Nat → List Event → List Event
  | _, [] => []
  | n, .delay d :: es => .delay d :: untilWrite n es
  | 0, .write _ _ :: _ => []
  | n + 1, .write v r :: es => .write v r :: untilWrite n es

/-- The byte of write number `n`, counted from 0. -/
def nthWrite : Nat → List Event → Option Byte
  | _, [] => none
  | n, .delay _ :: es => nthWrite n es
  | 0, .write v _ :: _ => some v
  | n + 1, .write _ _ :: es => nthWrite n es

/-- NTX after a request that wrote the bus and ran to an OK response: the word latched, and no write in its handshake, so that no
byte is driven any more (R16, R62–R64). -/
def Ntx.completed (n : Ntx) (w : Word) : Ntx :=
  { n with req := w, fsm := .idle, todo := [], rspStatus := 0#2, rspValid := true, busWr := none }

/-- The write keeps RW low (R61). -/
def Line.rwLow (p : Params) : Line → Bool
  | .write v => !v.getLsbD p.rwBit.val
  | .startDelay _ => true
  | .endDelay _ => true

/-- The event keeps RW low (R61). -/
def Event.rwLow (p : Params) : Event → Bool
  | .write v _ => !v.getLsbD p.rwBit.val
  | .delay _ => true

/-- Every delay that starts is the next to end, and none ends that has not started. -/
def pairedDelays : List Line → Bool
  | [] => true
  | .write _ :: ls => pairedDelays ls
  | .startDelay n :: .endDelay m :: ls => n == m && pairedDelays ls
  | .startDelay _ :: _ => false
  | .endDelay _ :: _ => false

/-- How long the lines still to run wait. -/
def delaysLeft : List Line → Nat
  | [] => 0
  | .write _ :: ls => delaysLeft ls
  | .startDelay _ :: ls => delaysLeft ls
  | .endDelay n :: ls => n + delaysLeft ls

/-- What holds between any two steps (log 12). -/
structure State.Inv (s : State) : Prop where
  /-- the parameters are those R8 and R92 allow -/
  params : s.cfg.Wf
  /-- R61: no byte written so far had RW high -/
  traceRwLow : s.trace.all (Event.rwLow s.cfg) = true
  /-- R61: nor has any byte still to be written -/
  todoRwLow : s.ntx.todo.all (Line.rwLow s.cfg) = true
  /-- the lines still to run end every delay they start -/
  todoPaired : pairedDelays s.ntx.todo = true
  /-- the timer is idle outside a delay (R20) -/
  timerIdle : s.ntx.tmr = none
  /-- `RSP_STATUS = 3` is never written (R22) -/
  status : s.ntx.rspStatus ≠ 3#2
  /-- IDLE: nothing left to run, no write outstanding (R18, R64) -/
  idle : s.ntx.fsm = .idle → s.ntx.todo = [] ∧ s.ntx.busWr = none
  /-- BUSY: no response, and the write that is outstanding is the next line (R62, R64) -/
  busy : s.ntx.fsm = .busy →
    s.ntx.rspValid = false ∧ s.ntx.busWr.isSome = true ∧ s.ntx.todo.head? = s.ntx.busWr.map .write
  /-- DDRAM keeps its canonical form -/
  memory : Memory.wf s.rcv.ddram = true
  /-- R60: once a transfer has met a busy controller, no display content is known -/
  lost : s.rcv.contentLost = true → s.rcv.ddram = []
  /-- the own waits of the last pulse are over once its request is -/
  pulse : s.rcv.pulseEnd ≤ s.now + delaysLeft s.ntx.todo

/-- The machine went on. -/
def Goes (o : Host.Outcome State Fault Refusal) : Bool :=
  match o with
  | .next _ => true
  | .fault _ => false
  | .refused _ => false

end Sys2Proof.Machine
end

