-- ==== Sys2Proof/Certificates/Slice0/Obligations.lean ====
section
/-! DEFINITION. The statements for the provers. Each docstring names the rules of spec/ it formalises. -/

open Sys2Proof Sys2Proof.Machine

/-! ## Reset -/

/-- R32, R17, R28, R29, R31: the reset values the spec gives; the values the model chose (log 3) are not mentioned. -/
def Obligations.ResetStateValues : Prop :=
  State.reset.ntx.bl = true ∧ State.reset.ntx.fsm = .idle ∧ State.reset.ntx.tmr = none ∧
    State.reset.ntx.errs = false ∧ State.reset.ntx.rspStatus = 0#2 ∧ State.reset.ntx.rspValid = false ∧
    State.reset.ntx.busWrValid = false ∧ State.reset.trace = [] ∧
    State.reset.rcv.pins = none ∧ State.reset.rcv.mode = .unknown ∧ 1000000 ≤ State.reset.rcv.busyUntil ∧
    State.reset.drv.life = .uninitialized ∧ State.reset.drv.backlight = true ∧ State.reset.drv.displayOn = false ∧
    State.reset.drv.cursorOn = false ∧ State.reset.drv.blinkOn = false

/-- R157, R160: a reset puts NTX into its reset state and emits no event. The host, its queue, the bus's answers and the
parameters are untouched; the pins and the controller's mode are UNKNOWN. NTX then waits, IDLE, for a request; R162: the host
gives it `SETBL 0` if its own flag is false. In which steps the host does so is log 13's choice. -/
def Obligations.ResetTakesEffect : Prop :=
  ∀ s : State, s.rstIn.head? = some 0 →
    ∃ t, step s = .next t ∧
      t.ntx.bl = true ∧ t.ntx.fsm = .idle ∧ t.ntx.tmr = none ∧ t.ntx.errs = false ∧ t.ntx.rspStatus = 0#2 ∧
      t.ntx.rspValid = false ∧ t.ntx.busWrValid = false ∧
      t.trace = s.trace ∧ t.cfg = s.cfg ∧ t.drv = s.drv ∧ t.hostIn = s.hostIn ∧ t.busIn = s.busIn ∧
      t.rcv.pins = none ∧ t.rcv.mode = .unknown ∧
      (s.rstIn = [0] → s.drv.job = none → s.drv.backlight = true → s.hostIn = [] →
        ∀ k, Host.Core.run core (k + 1) t = .next { t with rstSeen := false }) ∧
      (s.rstIn = [0] → s.drv.job = none → s.drv.backlight = false → okAnswers 1 s.busIn = true →
        ∃ u, Host.Core.run core 3 t = .next u ∧ u.ntx.req = 0x04000000#32 ∧ u.ntx.bl = false ∧
          u.trace = s.trace ++ [.write 0x00#8 .ok] ∧
          (s.drv.life ≠ .initializing → u.drv = { s.drv with result := .ok }))

/-- R158: whatever the instruction, a reset that falls within it, at whichever line, abandons it: no response, no timer, the
pins UNKNOWN, and only a first part of the events the undisturbed request would have made. -/
def Obligations.ResetAbandonsAnyRequest : Prop :=
  ∀ (i : Instr) (s t u : State), s.ntx.fsm = .idle → exec i s = .next t → t.rstIn.length < s.rstIn.length →
    exec i { s with rstIn := [] } = .next u →
    t.ntx.fsm = .idle ∧ t.ntx.rspValid = false ∧ t.ntx.busWrValid = false ∧ t.ntx.tmr = none ∧
      t.rcv.pins = none ∧ t.rcv.mode = .unknown ∧ t.rstIn = s.rstIn.tail ∧ s.trace <+: t.trace ∧ t.trace <+: u.trace

/-- R158 at each point of an enable pulse: before its E-high write, in the E-high wait, before its E-low write, and in the
wait after it (the event of a wait is emitted when the wait begins). -/
def Obligations.ResetInsidePulse : Prop :=
  ∀ (s : State) (v : Byte) (k : Nat) (later : List Nat), s.ntx.fsm = .idle → s.rstIn = k :: later → k < 6 →
    s.cfg.settle = false → WellFormed.controlClear s.cfg v = true → okAnswers 2 s.busIn = true →
    ∃ t, exec (.wrnib v) s = .next t ∧
      t.trace = s.trace ++ (pulseEvents s.cfg s.ntx.bl v).take ([0, 1, 2, 2, 3, 4].getD k 0) ∧
      t.ntx.fsm = .idle ∧ t.ntx.rspValid = false ∧ t.ntx.tmr = none ∧ t.rcv.pins = none ∧ t.rstIn = later

/-! ## Decoding and encoding -/

/-- R66 to R72, R76 to R79: decoding the code of a well-formed instruction gives it back, every operand at every value. -/
def Obligations.DecodeEncode : Prop :=
  ∀ (p : Params) (i : Instr), WellFormed p i = true → decode p (encode i) = .instr i

/-- R66 to R73 for a request word, R76 to R79 and the opcode table for a command byte: what a code decodes to is well-formed, and
that instruction's encoding is the code: each code has one meaning. Of a command byte whose row leaves bits without a name, these
are operands (log 9); the bytes themselves are general knowledge in the spec, but for SetDDRamAddr's. -/
def Obligations.EncodeDecode : Prop :=
  ∀ (p : Params) (c : Code) (i : Instr), decode p c = .instr i → encode i = c ∧ WellFormed p i = true

/-- R73: every 32-bit word decodes, and to exactly one row, each row with the conditions of the rule's pseudocode. -/
def Obligations.EveryWordDecodesByItsRow : Prop :=
  ∀ w : Word,
    (∀ v, decodeRequest Params.default w = .wrnib v ↔
      w.extractLsb' 24 8 = 0x01#8 ∧ w.extractLsb' 8 16 = 0#16 ∧ w.getLsbD 2 = false ∧ w.getLsbD 1 = false ∧
        v = w.extractLsb' 0 8) ∧
    (∀ b, decodeRequest Params.default w = .sendcmd b ↔
      w.extractLsb' 24 8 = 0x02#8 ∧ w.extractLsb' 8 16 = 0#16 ∧ b = w.extractLsb' 0 8) ∧
    (∀ b, decodeRequest Params.default w = .senddata b ↔
      w.extractLsb' 24 8 = 0x03#8 ∧ w.extractLsb' 8 16 = 0#16 ∧ b = w.extractLsb' 0 8) ∧
    (∀ x, decodeRequest Params.default w = .setbl x ↔
      w.extractLsb' 24 8 = 0x04#8 ∧ w.extractLsb' 1 23 = 0#23 ∧ x = w.getLsbD 0) ∧
    (∀ n, decodeRequest Params.default w = .waitus n ↔ w.extractLsb' 24 8 = 0x05#8 ∧ n = w.extractLsb' 0 24) ∧
    (∀ u, decodeRequest Params.default w = .illegal u ↔
      u = w ∧
        ¬ (w.extractLsb' 24 8 = 0x01#8 ∧ w.extractLsb' 8 16 = 0#16 ∧ w.getLsbD 2 = false ∧ w.getLsbD 1 = false) ∧
        ¬ (w.extractLsb' 24 8 = 0x02#8 ∧ w.extractLsb' 8 16 = 0#16) ∧
        ¬ (w.extractLsb' 24 8 = 0x03#8 ∧ w.extractLsb' 8 16 = 0#16) ∧
        ¬ (w.extractLsb' 24 8 = 0x04#8 ∧ w.extractLsb' 1 23 = 0#23) ∧
        ¬ (w.extractLsb' 24 8 = 0x05#8))

/-- R76 to R79: each command byte is named by its row's match and mask; 0x00 and 0x03 have no name. -/
def Obligations.CommandBytesByMask : Prop :=
  ∀ b : Byte,
    (decodeCommand b = .instr .clearDisplay ↔ b = 0x01#8) ∧
    (decodeCommand b = .instr .returnHome ↔ b = 0x02#8) ∧
    ((∃ id s, decodeCommand b = .instr (.entryModeSet id s)) ↔ b &&& 0xFC#8 = 0x04#8) ∧
    ((∃ d c k, decodeCommand b = .instr (.displayControl d c k)) ↔ b &&& 0xF8#8 = 0x08#8) ∧
    ((∃ x, decodeCommand b = .instr (.cursorShift x)) ↔ b &&& 0xF0#8 = 0x10#8) ∧
    ((∃ dl n f low, decodeCommand b = .instr (.functionSet dl n f low)) ↔ b &&& 0xE0#8 = 0x20#8) ∧
    ((∃ a, decodeCommand b = .instr (.setCGRamAddr a)) ↔ b &&& 0xC0#8 = 0x40#8) ∧
    ((∃ a, decodeCommand b = .instr (.setDDRamAddr a)) ↔ b &&& 0x80#8 = 0x80#8) ∧
    (decodeCommand b = .noRow b ↔ b = 0x00#8 ∨ b = 0x03#8)

/-- Words written out from R66 to R71 and the opcode table, one a family. -/
def Obligations.SampleWordsDecode : Prop :=
  decodeTableWord 32 0x010000F9 = some (.wrnib 0xF9#8) ∧ decodeTableWord 32 0x020000C5 = some (.sendcmd 0xC5#8) ∧
    decodeTableWord 32 0x03000041 = some (.senddata 0x41#8) ∧ decodeTableWord 32 0x04000001 = some (.setbl true) ∧
    decodeTableWord 32 0x050F4240 = some (.waitus 1000000#24) ∧
    decodeTableWord 32 0x01000034 = some (.illegal 0x01000034#32) ∧
    decodeTableWord 8 0x0E = some (.displayControl true true false) ∧
    decodeTableWord 8 0x28 = some (.functionSet false true false 0#2) ∧
    decodeTableWord 8 0xC5 = some (.setDDRamAddr 0x45#7)

/-- R80, R81: what the assembler emits for a line is never ILLEGAL, each request's word decoding to that request; a line whose
operand fits emits exactly the request of R80 or the expansion of R81; and a line whose operand does not fit is an error. -/
def Obligations.AssemblerEmitsLegalRequests : Prop :=
  ∀ p : Params,
    (∀ (l : SourceLine) (is : List Instr), assemble p l = some is →
      ∀ i ∈ is, WellFormed p i = true ∧ decodeRequest p (encodeRequest i) = i ∧ ∀ w, i ≠ .illegal w) ∧
    (∀ v : Byte, assemble p (.wrnib v.toNat) = if WellFormed.controlClear p v then some [.wrnib v] else none) ∧
    (∀ b : Byte, assemble p (.sendcmd b.toNat) = some [.sendcmd b] ∧ assemble p (.senddata b.toNat) = some [.senddata b]) ∧
    (∀ n, 0x100 ≤ n →
      assemble p (.wrnib n) = none ∧ assemble p (.sendcmd n) = none ∧ assemble p (.senddata n) = none) ∧
    assemble p (.setbl 0) = some [.setbl false] ∧ assemble p (.setbl 1) = some [.setbl true] ∧
    (∀ n, 2 ≤ n → assemble p (.setbl n) = none) ∧
    (∀ n, assemble p (.waitus n) =
      if n < 2 ^ p.waitBits ∧ n < 2 ^ 24 then some [.waitus (BitVec.ofNat 24 n)] else none) ∧
    (p.Wf → assemble p .clear = some [.sendcmd 0x01#8, .waitus 2000#24] ∧
      assemble p .home = some [.sendcmd 0x02#8, .waitus 2000#24]) ∧
    (∀ d c b, assemble p (.dispctl d c b) = some [.sendcmd
      (0x08#8 ||| (if d then 0x04#8 else 0x00#8) ||| (if c then 0x02#8 else 0x00#8) ||| (if b then 0x01#8 else 0x00#8))]) ∧
    (∀ a, assemble p (.setddram a) = if a ≤ 0x7F then some [.sendcmd (0x80#8 ||| BitVec.ofNat 8 a)] else none) ∧
    (∀ c, assemble p (.putc c) = if c ≤ 0x7F then some [.senddata (BitVec.ofNat 8 c)] else none) ∧
    assemble p .sync8 = some [.wrnib 0x30#8] ∧ assemble p .go4 = some [.wrnib 0x20#8] ∧
    (∀ m, assemble p (.waitms m) = assemble p (.waitus (m * 1000)))

/-! ## A step -/

/-- R62, R73: NTX IDLE, no reset due or to be acted on, no driver operation in progress: a step executes exactly the instruction
that the next code given decodes to, with that code taken from the host's queue, and one event slot passes (log 1). A command
byte of no row of R76 (0x00 and 0x03) is executed as the SENDCMD of it, which is the model's choice (log 9). -/
def Obligations.StepRunsDecodedInstruction : Prop :=
  ∀ (s : State) (c : Code) (rest : List HostInput), s.HostsTurn → s.drv.job = none → s.hostIn = .give c :: rest →
    (∀ i, decode s.cfg c = .instr i → step s = exec i { tick s with hostIn := rest }) ∧
    (∀ b, decode s.cfg c = .noRow b → step s = exec (.sendcmd b) { tick s with hostIn := rest })

/-- R118, R62: a driver's operation that awaits no response, or whose response is there and OK, goes on to its next line: a
request is executed as its word decodes, and a DisplayControl line (R127) as the SENDCMD of the composite of the flags as they
then are; either way its response is then awaited. -/
def Obligations.DriverIssuesRequest : Prop :=
  ∀ (s : State) (j : Job), s.HostsTurn → s.drv.job = some j →
    j.awaiting = false ∨ s.ntx.rspValid = true ∧ s.ntx.rspStatus = 0#2 →
    (∀ w rest, j.todo = .issue w :: rest → step s = exec (decodeRequest s.cfg w)
      { tick s with drv := { s.drv with job := some { todo := rest, awaiting := true } } }) ∧
    (∀ rest, j.todo = .sendDisplayControl :: rest → step s = exec
      (.sendcmd (0x08#8 ||| (if s.drv.displayOn then 0x04#8 else 0x00#8) ||| (if s.drv.cursorOn then 0x02#8 else 0x00#8) |||
        (if s.drv.blinkOn then 0x01#8 else 0x00#8)))
      { tick s with drv := { s.drv with job := some { todo := rest, awaiting := true } } })

/-- R119, R132, R133, R135, R139 to R141, R148, U5 to U7, U10: no instruction stops the machine; and a step stops exactly where
the host starts an operation on a driver that is not Ready, misuses an operation, or reads the status 3, which NTX never
writes. That this is a stop of the model, and that a command byte of no row of R76 is none, are log 13's and log 9's. -/
def Obligations.OnlyTheHostStopsTheMachine : Prop :=
  (∀ (i : Instr) (s : State), Goes (exec i s) = true) ∧
  ∀ s : State, Goes (step s) = false ↔
    s.HostsTurn ∧
      ((s.drv.job = none ∧ ∃ o, s.hostIn.head? = some (.op o) ∧ (s.drv.life ≠ .ready ∨ o.misused = true)) ∨
        (s.drv.job.any (·.awaiting) = true ∧ s.ntx.rspValid = true ∧ s.ntx.rspStatus = 3#2))

/-- R18, R62, R168: while NTX is BUSY no instruction is taken: nothing at all changes. -/
def Obligations.BusyTakesNothing : Prop :=
  ∀ (i : Instr) (s : State), s.ntx.fsm = .busy → exec i s = .next s

/-! ## The requests, run to their end -/

/-- R91, R93, R94, R115: a WRNIB whose writes are all answered `ok` makes one enable pulse and responds OK. The equation is
the whole next state: the parameters, the host, `BL`, `ERRS` and `RSP_INFO` are as before, and the bus port drives no byte any
more (R16, R64). What the checks at its start, and a pulse that finds the controller busy, leave of the receiver is the model's
choice (logs 11 and 16). -/
def Obligations.WrnibPulse : Prop :=
  ∀ (s : State) (v : Byte), s.Free → WellFormed.controlClear s.cfg v = true →
    okAnswers (pulseWrites s.cfg) s.busIn = true →
    exec (.wrnib v) s = .next { s with
      ntx := { s.ntx.completed (0x010000#24 ++ v) with tmr := none }
      rcv := (s.rcv.beginPulse s.cfg s.now (nibbleRequest v s)).seePulse s.cfg s.now s.ntx.bl v
      trace := s.trace ++ pulseEvents s.cfg s.ntx.bl v
      now := s.now + s.cfg.tEh + s.cfg.tPost
      busIn := s.busIn.drop (pulseWrites s.cfg) }

/-- R90: a WRNIB with its E or its RW position set is ILLEGAL: no write, and only the response changes. -/
def Obligations.WrnibIllegalOperand : Prop :=
  ∀ (s : State) (v : Byte), s.Free → v.getLsbD s.cfg.eBit.val = true ∨ v.getLsbD s.cfg.rwBit.val = true →
    exec (.wrnib v) s = .next { s with ntx := { s.ntx with
      req := 0x010000#24 ++ v, fsm := .idle, todo := [], rspStatus := 2#2, rspValid := true } }

/-- R95: a pulse ends at its first failing write, whichever it is, with no later event, the pins UNKNOWN, and the bus's own
error value in the response. -/
def Obligations.WrnibBusError : Prop :=
  ∀ (s : State) (v : Byte) (oks rest : List BusAnswer) (e : BusErr), s.Free →
    WellFormed.controlClear s.cfg v = true → s.busIn = oks ++ { wrOk := false, wrErr := e } :: rest →
    oks.all (·.wrOk) = true → oks.length < pulseWrites s.cfg →
    ∃ t, exec (.wrnib v) s = .next t ∧
      t.ntx.rspStatus = 1#2 ∧ t.ntx.rspInfo = e ∧ t.ntx.errs = true ∧ t.ntx.rspValid = true ∧ t.ntx.fsm = .idle ∧
      t.ntx.bl = s.ntx.bl ∧ t.rcv.pins = none ∧ t.busIn = rest ∧
      (s.cfg.settle = false → oks.length = 0 →
        t.trace = s.trace ++ [.write (raiseE s.cfg (overlay s.cfg s.ntx.bl v)) (.err e)]) ∧
      (s.cfg.settle = false → oks.length = 1 →
        t.trace = s.trace ++ [.write (raiseE s.cfg (overlay s.cfg s.ntx.bl v)) .ok, .delay s.cfg.tEh,
          .write (overlay s.cfg s.ntx.bl v) (.err e)]) ∧
      (s.cfg.settle = true → oks.length = 0 →
        t.trace = s.trace ++ [.write (overlay s.cfg s.ntx.bl v) (.err e)]) ∧
      (s.cfg.settle = true → oks.length = 1 →
        t.trace = s.trace ++ [.write (overlay s.cfg s.ntx.bl v) .ok,
          .write (raiseE s.cfg (overlay s.cfg s.ntx.bl v)) (.err e)]) ∧
      (s.cfg.settle = true → oks.length = 2 →
        t.trace = s.trace ++ [.write (overlay s.cfg s.ntx.bl v) .ok,
          .write (raiseE s.cfg (overlay s.cfg s.ntx.bl v)) .ok, .delay s.cfg.tEh,
          .write (overlay s.cfg s.ntx.bl v) (.err e)])

/-- What SENDCMD (`rs` false) and SENDDATA (`rs` true) leave with every write answered `ok`: both nibbles' pulses, high nibble
first, an OK response to the word `w`, and no byte driven any more on the bus port (R16, R64). The receiver has the checks of logs
11 and 16 at the start. -/
def Sys2Proof.Machine.byteSent (w : Word) (b : Byte) (rs : Bool) (s : State) : State :=
  { s with
    ntx := { s.ntx.completed w with tmr := none }
    rcv := ((s.rcv.beginPulse s.cfg s.now (.byte b rs)).seePulse s.cfg s.now s.ntx.bl (hiNibble s.cfg b rs)).seePulse s.cfg
      (s.now + s.cfg.tEh + s.cfg.tPost) s.ntx.bl (loNibble s.cfg b rs)
    trace := s.trace ++ byteEvents s.cfg s.ntx.bl b rs
    now := s.now + s.cfg.tEh + s.cfg.tPost + s.cfg.tEh + s.cfg.tPost
    busIn := s.busIn.drop (2 * pulseWrites s.cfg) }

/-- R106, R107, R48: SENDCMD and SENDDATA run to their end. The equations are the whole next state, with no byte driven any more on
the bus port (R16, R64). What the checks at their start leave of the receiver, and how long it is busy after each pulse, is the
model's choice (logs 11 and 16). -/
def Obligations.ByteRequestsSendBothNibbles : Prop :=
  ∀ (s : State) (b : Byte), s.Free → okAnswers (2 * pulseWrites s.cfg) s.busIn = true →
    exec (.sendcmd b) s = .next (byteSent (0x020000#24 ++ b) b false s) ∧
    exec (.senddata b) s = .next (byteSent (0x030000#24 ++ b) b true s)

/-- R108: SENDCMD and SENDDATA end at their first failing write, the one after `oks`, whichever of the four it is, or of the six
that they make with the settle write (R93); what went before it stands, and nothing follows it. Of the controller nothing is then
known (R144, D32; log 14). -/
def Obligations.ByteRequestsEndAtFailingWrite : Prop :=
  ∀ (s : State) (b : Byte) (rs : Bool) (oks rest : List BusAnswer) (e : BusErr), s.Free →
    s.busIn = oks ++ { wrOk := false, wrErr := e } :: rest → oks.all (·.wrOk) = true →
    oks.length < 2 * pulseWrites s.cfg →
    ∃ t v, exec (if rs then .senddata b else .sendcmd b) s = .next t ∧
      nthWrite oks.length (byteEvents s.cfg s.ntx.bl b rs) = some v ∧
      t.trace = s.trace ++ untilWrite oks.length (byteEvents s.cfg s.ntx.bl b rs) ++ [.write v (.err e)] ∧
      t.ntx.rspStatus = 1#2 ∧ t.ntx.rspInfo = e ∧ t.ntx.errs = true ∧ t.ntx.bl = s.ntx.bl ∧ t.ntx.fsm = .idle ∧
      t.ntx.rspValid = true ∧ t.rcv.pins = none ∧ t.rcv.mode = .unknown ∧ t.rcv.ddram = [] ∧ t.busIn = rest

/-- R97, R99: SETBL makes exactly one write, of the backlight byte, and no delay, whatever `BL` was. The equation is the
whole next state, with no byte driven any more on the bus port (R16, R64). What the check at its start leaves of the receiver, and
the wait after a falling edge that it makes from UNKNOWN pins, is the model's choice (log 11). -/
def Obligations.SetblRefreshes : Prop :=
  ∀ (s : State) (x : Bool), s.Free → okAnswers 1 s.busIn = true →
    exec (.setbl x) s = .next { s with
      ntx := { s.ntx.completed (0x04#8 ++ (0#23 ++ BitVec.ofBool x)) with bl := x }
      rcv := (s.rcv.beginRefresh s.now).observe s.cfg s.now (backlightByte s.cfg x)
      trace := s.trace ++ [.write (if x then BitVec.twoPow 8 s.cfg.blBit.val else 0x00#8) .ok]
      busIn := s.busIn.drop 1 }

/-- R98: `BL` takes the new value before the write (it has it while the write is still unanswered), and keeps it when the
write fails; the request then ends in `BusError(e)`, with the pins UNKNOWN. -/
def Obligations.SetblKeepsNewValueOnError : Prop :=
  ∀ (s : State) (x : Bool), s.Free →
    (s.busIn = [] → ∃ t, exec (.setbl x) s = .next t ∧ t.ntx.bl = x ∧ t.trace = s.trace ∧ t.ntx.fsm = .busy) ∧
    ∀ (e : BusErr) (rest : List BusAnswer), s.busIn = { wrOk := false, wrErr := e } :: rest →
      ∃ t, exec (.setbl x) s = .next t ∧ t.ntx.bl = x ∧ t.ntx.rspStatus = 1#2 ∧ t.ntx.rspInfo = e ∧
        t.ntx.errs = true ∧ t.ntx.rspValid = true ∧ t.ntx.fsm = .idle ∧ t.rcv.pins = none ∧
        t.trace = s.trace ++ [.write (if x then BitVec.twoPow 8 s.cfg.blBit.val else 0x00#8) (.err e)]

/-- R100: from known pins with E low, a SETBL makes no falling edge: of the controller's state nothing changes, and DDRAM
with it. It does not come too soon after Clear or Home (R164). -/
def Obligations.SetblMakesNoTransfer : Prop :=
  ∀ (s : State) (x : Bool), s.Free → s.ELow → s.rcv.quietUntil ≤ s.now → okAnswers 1 s.busIn = true →
    ∃ t, exec (.setbl x) s = .next t ∧
      t.rcv = { s.rcv with pins := some (backlightByte s.cfg x), draws := t.rcv.draws }

/-- R112: every word of opcode 0x05 is WAITUS of its `ARG`, if that fits `P_WAIT_BITS` (24 by default). WAITUS emits
`D(N)`, or nothing for `N = 0`, writes no byte, and needs no answer of the bus; the equations are the whole next state. -/
def Obligations.WaitusWaits : Prop :=
  ∀ (s : State) (n : BitVec 24), s.Free →
    (n.toNat < 2 ^ s.cfg.waitBits → decodeRequest s.cfg (0x05#8 ++ n) = .waitus n) ∧
    (n = 0#24 → exec (.waitus n) s = .next { s with ntx := { s.ntx with
      req := 0x05#8 ++ n, fsm := .idle, todo := [], rspStatus := 0#2, rspValid := true } }) ∧
    (n ≠ 0#24 → exec (.waitus n) s = .next { s with
      ntx := { s.ntx with
        req := 0x05#8 ++ n, fsm := .idle, todo := [], rspStatus := 0#2, rspValid := true, tmr := none }
      trace := s.trace ++ [.delay n.toNat]
      now := s.now + n.toNat })

/-- R113, R114: the ticks loaded last at least the time asked for, at a tick period of at least 1 and less than 1000 ns. -/
def Obligations.TimerLastsLongEnough : Prop :=
  1 ≤ Config.tickNs ∧ Config.tickNs < 1000 ∧ ∀ n : Nat, n * 1000 ≤ ticksFor n * Config.tickNs

/-- R141: an ILLEGAL request emits no event and changes nothing but the response (and the latch that holds it, R62). -/
def Obligations.IllegalOnlyResponds : Prop :=
  ∀ (s : State) (w : Word), s.Free →
    exec (.illegal w) s = .next { s with ntx := { s.ntx with
      req := w, fsm := .idle, todo := [], rspStatus := 2#2, rspValid := true } }

/-- R76, R106: ClearDisplay, ReturnHome, EntryModeSet, DisplayControl, CursorShift, FunctionSet, SetCGRamAddr and SetDDRamAddr
are sent as the command bytes of the table, each as the SENDCMD that carries it (log 9). The equations are the whole next state, with
no byte driven any more on the bus port (R16, R64). What the checks at the start leave of the receiver, and how long it is busy
after each pulse, is the model's choice (logs 11 and 16). -/
def Obligations.CommandsAreCarriedBySendcmd : Prop :=
  ∀ s : State, s.Free → okAnswers (2 * pulseWrites s.cfg) s.busIn = true →
    exec .clearDisplay s = .next (byteSent 0x02000001#32 0x01#8 false s) ∧
    exec .returnHome s = .next (byteSent 0x02000002#32 0x02#8 false s) ∧
    (∀ id sh, ∃ b : Byte, exec (.entryModeSet id sh) s = .next (byteSent (0x020000#24 ++ b) b false s) ∧
      b = 0x04#8 ||| (if id then 0x02#8 else 0x00#8) ||| (if sh then 0x01#8 else 0x00#8)) ∧
    (∀ d c k, ∃ b : Byte, exec (.displayControl d c k) s = .next (byteSent (0x020000#24 ++ b) b false s) ∧
      b = 0x08#8 ||| (if d then 0x04#8 else 0x00#8) ||| (if c then 0x02#8 else 0x00#8) |||
        (if k then 0x01#8 else 0x00#8)) ∧
    (∀ x : BitVec 4, ∃ b : Byte, exec (.cursorShift x) s = .next (byteSent (0x020000#24 ++ b) b false s) ∧
      b = 0x10#8 ||| x.setWidth 8) ∧
    (∀ dl n f, ∀ low : BitVec 2, ∃ b : Byte,
      exec (.functionSet dl n f low) s = .next (byteSent (0x020000#24 ++ b) b false s) ∧
      b = 0x20#8 ||| (if dl then 0x10#8 else 0x00#8) ||| (if n then 0x08#8 else 0x00#8) |||
        (if f then 0x04#8 else 0x00#8) ||| low.setWidth 8) ∧
    (∀ a : BitVec 6, ∃ b : Byte, exec (.setCGRamAddr a) s = .next (byteSent (0x020000#24 ++ b) b false s) ∧
      b = 0x40#8 ||| a.setWidth 8) ∧
    (∀ a : BitVec 7, ∃ b : Byte, exec (.setDDRamAddr a) s = .next (byteSent (0x020000#24 ++ b) b false s) ∧
      b = 0x80#8 ||| a.setWidth 8)

/-- R63, R139: every instruction runs to a response when the bus answers `ok` to as many writes as a request makes (R43: up
to 6): ILLEGAL for an ILLEGAL word and for an ill-formed operand, OK for everything else. -/
def Obligations.EveryInstructionCompletes : Prop :=
  ∀ (i : Instr) (s : State), s.Free → okAnswers 6 s.busIn = true →
    ∃ t, exec i s = .next t ∧ t.ntx.fsm = .idle ∧ t.ntx.rspValid = true ∧
      (t.ntx.rspStatus = 0#2 ∨ t.ntx.rspStatus = 2#2) ∧
      (t.ntx.rspStatus = 2#2 ↔ (∃ v, i = .wrnib v ∧ WellFormed.controlClear s.cfg v = false) ∨ ∃ w, i = .illegal w)

/-! ## The bytes on the bus -/

/-- R109: the splitting law. -/
def Obligations.SplittingLaw : Prop :=
  ∀ (p : Params) (b : Byte) (rs : Bool), p.Wf →
    dataLines (hiNibble p b rs) = b.extractLsb' 4 4 ∧ dataLines (loNibble p b rs) = b.extractLsb' 0 4 ∧
    dataLines (hiNibble p b rs) ++ dataLines (loNibble p b rs) = b ∧
    (∀ j : Fin 4, (hiNibble p b rs).getLsbD j.val = (rs && decide (j = p.rsBit))) ∧
    (∀ j : Fin 4, (loNibble p b rs).getLsbD j.val = (rs && decide (j = p.rsBit)))

/-- R74, R91, R94: every byte of a pulse carries the nibble, RS and backlight of its operand and of `BL`, RW low, and E high
exactly in the write that raises it. -/
def Obligations.ControlByteLines : Prop :=
  ∀ (p : Params) (bl : Bool) (v : Byte), p.Wf → WellFormed.controlClear p v = true →
    (∀ u ∈ [overlay p bl v, raiseE p (overlay p bl v)],
      dataLines u = dataLines v ∧ u.getLsbD p.rsBit.val = v.getLsbD p.rsBit.val ∧
        u.getLsbD p.blBit.val = (bl || v.getLsbD p.blBit.val) ∧ u.getLsbD p.rwBit.val = false) ∧
    (overlay p bl v).getLsbD p.eBit.val = false ∧ (raiseE p (overlay p bl v)).getLsbD p.eBit.val = true

/-- R110: the traces of SENDCMD and SENDDATA of one byte differ only by RS in each byte written, whatever the bus answers and
whether or not a reset cuts them short. -/
def Obligations.SenddataIsSendcmdWithRs : Prop :=
  ∀ (s t u : State) (b : Byte), exec (.sendcmd b) s = .next t → exec (.senddata b) s = .next u →
    ∃ evs, t.trace = s.trace ++ evs ∧
      u.trace = s.trace ++ evs.map fun e =>
        match e with
        | .write v r => .write (v ||| BitVec.twoPow 8 s.cfg.rsBit.val) r
        | .delay n => .delay n

/-- R96: two WRNIBs of the halves of a byte, high first, make the traffic of one SENDCMD or SENDDATA of it. -/
def Obligations.NibblePairIsByte : Prop :=
  ∀ (s : State) (b : Byte) (rs : Bool), s.Free → s.cfg.Wf → okAnswers (2 * pulseWrites s.cfg) s.busIn = true →
    ∃ t u v, exec (.wrnib (hiNibble s.cfg b rs)) s = .next t ∧ exec (.wrnib (loNibble s.cfg b rs)) t = .next u ∧
      exec (if rs then .senddata b else .sendcmd b) s = .next v ∧ u.trace = v.trace ∧ u.ntx.rspStatus = 0#2 ∧
      v.ntx.rspStatus = 0#2

/-- R61: no instruction, however its request ends, writes a byte with RW high, nor does the rest of a request that waited
for the bus. -/
def Obligations.RwNeverHigh : Prop :=
  (∀ (i : Instr) (s t : State), s.cfg.Wf → exec i s = .next t →
    ∃ evs, t.trace = s.trace ++ evs ∧ evs.all (Event.rwLow s.cfg) = true) ∧
  ∀ s t : State, s.Inv → step s = .next t → ∃ evs, t.trace = s.trace ++ evs ∧ evs.all (Event.rwLow s.cfg) = true

/-- R94, R17: however a SENDCMD or SENDDATA ends, every byte it writes carries the backlight bit of `BL`. -/
def Obligations.EveryByteCarriesBacklight : Prop :=
  ∀ (s t : State) (b : Byte) (rs : Bool), s.ntx.fsm = .idle → s.cfg.Wf →
    exec (if rs then .senddata b else .sendcmd b) s = .next t →
    ∃ evs, t.trace = s.trace ++ evs ∧ ∀ v r, Event.write v r ∈ evs → v.getLsbD s.cfg.blBit.val = s.ntx.bl

/-- R17, R98: of all instructions only SETBL writes `BL`, and an accepted SETBL always does, however its write ends. -/
def Obligations.OnlySetblWritesBacklight : Prop :=
  ∀ (i : Instr) (s t : State), s.Free → exec i s = .next t →
    t.ntx.bl = match i with
      | .setbl x => x
      | _ => s.ntx.bl

/-! ## Errors -/

/-- R140, R142, R143: a request that ends does so with all its writes `ok` and `RSP_INFO` and `ERRS` untouched, or at its one
failing write, the last event of all, with that write's error value in `RSP_INFO` and `ERRS` set. -/
def Obligations.BusErrorIsPrecise : Prop :=
  ∀ (i : Instr) (s t : State), s.Free → exec i s = .next t → t.ntx.fsm = .idle →
    (t.ntx.rspStatus ≠ 1#2 ∧ t.ntx.rspInfo = s.ntx.rspInfo ∧ t.ntx.errs = s.ntx.errs ∧
      ∃ evs, t.trace = s.trace ++ evs ∧ ∀ v e, Event.write v (.err e) ∉ evs) ∨
    (t.ntx.rspStatus = 1#2 ∧ t.ntx.errs = true ∧ t.rcv.pins = none ∧
      ∃ evs v, t.trace = s.trace ++ evs ++ [.write v (.err t.ntx.rspInfo)] ∧ ∀ u e, Event.write u (.err e) ∉ evs)

/-- R21: with no reset, no step clears `ERRS`. -/
def Obligations.StickyErrorStays : Prop :=
  ∀ s t : State, s.rstIn = [] → step s = .next t → s.ntx.errs = true → t.ntx.errs = true

/-- R145: NTX with a write outstanding that the bus does not answer stays as it is for ever; a reset ends it. -/
def Obligations.UnansweredWriteHangs : Prop :=
  ∀ s : State, s.Inv → s.ntx.fsm = .busy →
    (s.busIn = [] → s.rstIn = [] → ∀ k, Host.Core.run core k s = .next s) ∧
    (s.rstIn.head? = some 0 → ∃ t, step s = .next t ∧ t.ntx.fsm = .idle ∧ t.ntx.rspValid = false)

/-- R64, R18, with log 5's steps: a request that stopped at an unanswered write goes on, when answers come, exactly
as if they had been there from the start. -/
def Obligations.SuspendedRequestResumes : Prop :=
  ∀ (i : Instr) (s t : State) (as : List BusAnswer), s.Free → exec i s = .next t → t.ntx.fsm = .busy →
    step { t with busIn := as } = exec i { s with busIn := s.busIn ++ as }

/-! ## The whole machine -/

/-- The invariant holds at reset. -/
def Obligations.ResetMeetsInvariant : Prop := State.reset.Inv

/-- The invariant (R8, R18, R20, R22, R60, R61, R62, R64, and DDRAM's canonical form) is kept by every step. -/
def Obligations.StepKeepsInvariant : Prop :=
  ∀ s t : State, s.Inv → step s = .next t → t.Inv

/-- R12, R53: a step only adds to the trace. -/
def Obligations.TraceOnlyGrows : Prop :=
  ∀ s t : State, step s = .next t → s.trace <+: t.trace

/-- The frame of every instruction, however it ends: parameters, host and the host's queue are as before. -/
def Obligations.InstructionsLeaveHost : Prop :=
  ∀ (i : Instr) (s t : State), exec i s = .next t → t.cfg = s.cfg ∧ t.drv = s.drv ∧ t.hostIn = s.hostIn

/-- R42, R171: NTX, the host, the trace and the inputs never depend on the expander or the controller: a step from a state
that differs only there ends in a state that differs only there. -/
def Obligations.ReceiverIsNeverRead : Prop :=
  ∀ (s t : State) (r : Receiver), step s = .next t →
    ∃ r', step { s with rcv := r } = .next { t with rcv := r' }

/-! ## The receiver (reference only: D35; logs 10 and 11) -/

/-- R58, R106: a SENDCMD to a controller in step delivers its byte whole, as an instruction. These clauses are the model's
choice: that the second nibble finds the controller ready (log 11); that a byte which is no FunctionSet leaves the framing as it
is, of which R76 says nothing (log 10), and 0x00 and 0x03, which name no command, too (log 15). -/
def Obligations.SendcmdIsDelivered : Prop :=
  ∀ (s : State) (b : Byte), s.Free → s.cfg.Wf → s.InStep → okAnswers (2 * pulseWrites s.cfg) s.busIn = true →
    ∃ t, exec (.sendcmd b) s = .next t ∧ t.rcv.executed = s.rcv.executed ++ [⟨false, b⟩] ∧
      t.rcv.contentLost = s.rcv.contentLost ∧
      (b.getLsbD 7 = true ∨ b.extractLsb' 5 3 ≠ 1#3 → t.rcv.mode = .bit4 ∧ t.rcv.phase = .high)

/-- R77, R78, R79, R76: what the commands that set controller registers leave in a controller in step. That every other register
of it, and DDRAM, is as before, is the model's choice (log 10), as is that the second nibble finds it ready (log 11); the framing
after FunctionSet is general knowledge (G10). -/
def Obligations.RegisterCommandsTakeEffect : Prop :=
  ∀ s : State, s.Free → s.cfg.Wf → s.InStep → okAnswers (2 * pulseWrites s.cfg) s.busIn = true →
    (∀ d c k, ∃ t, exec (.displayControl d c k) s = .next t ∧ t.rcv.display = some ⟨d, c, k⟩ ∧
      t.rcv.entry = s.rcv.entry ∧ t.rcv.function = s.rcv.function ∧ t.rcv.addr = s.rcv.addr ∧
      t.rcv.ddram = s.rcv.ddram ∧ t.rcv.mode = .bit4) ∧
    (∀ id sh, ∃ t, exec (.entryModeSet id sh) s = .next t ∧ t.rcv.entry = some ⟨id, sh⟩ ∧
      t.rcv.display = s.rcv.display ∧ t.rcv.function = s.rcv.function ∧ t.rcv.addr = s.rcv.addr ∧
      t.rcv.ddram = s.rcv.ddram ∧ t.rcv.mode = .bit4) ∧
    (∀ dl n f low, ∃ t, exec (.functionSet dl n f low) s = .next t ∧ t.rcv.function = some ⟨dl, n, f⟩ ∧
      t.rcv.entry = s.rcv.entry ∧ t.rcv.display = s.rcv.display ∧ t.rcv.addr = s.rcv.addr ∧
      t.rcv.ddram = s.rcv.ddram ∧ t.rcv.mode = (if dl then .bit8 else .bit4) ∧ t.rcv.phase = .high) ∧
    (∀ a, ∃ t, exec (.setDDRamAddr a) s = .next t ∧ t.rcv.addr = some a ∧ t.rcv.entry = s.rcv.entry ∧
      t.rcv.display = s.rcv.display ∧ t.rcv.function = s.rcv.function ∧ t.rcv.ddram = s.rcv.ddram ∧
      t.rcv.mode = .bit4)

/-- What the other commands leave in a controller in step, where R76 and R164 give little, so that these clauses are the model's
choice: ClearDisplay and ReturnHome are not over until exactly 2000 µs past the request, CursorShift and SetCGRamAddr at its end
(log 11; R164 and R165 give the least the host must wait); what the spec does not say they leave (the address; after ClearDisplay
the content) is UNKNOWN, and everything else is as before (log 10). -/
def Obligations.OtherCommandsTakeEffect : Prop :=
  ∀ s : State, s.Free → s.cfg.Wf → s.InStep → okAnswers (2 * pulseWrites s.cfg) s.busIn = true →
    (∃ t, exec .clearDisplay s = .next t ∧ t.rcv.busyUntil = t.now + 2000 ∧ t.rcv.quietUntil = t.now + 2000 ∧
      t.rcv.addr = none ∧ t.rcv.ddram = [] ∧
      t.rcv.entry = s.rcv.entry ∧ t.rcv.display = s.rcv.display ∧ t.rcv.function = s.rcv.function) ∧
    (∃ t, exec .returnHome s = .next t ∧ t.rcv.busyUntil = t.now + 2000 ∧ t.rcv.quietUntil = t.now + 2000 ∧
      t.rcv.addr = none ∧ t.rcv.ddram = s.rcv.ddram ∧ t.rcv.entry = s.rcv.entry ∧ t.rcv.display = s.rcv.display ∧
      t.rcv.function = s.rcv.function) ∧
    (∀ x, ∃ t, exec (.cursorShift x) s = .next t ∧ t.rcv.busyUntil = t.now ∧ t.rcv.addr = none ∧
      t.rcv.ddram = s.rcv.ddram ∧ t.rcv.entry = s.rcv.entry ∧ t.rcv.display = s.rcv.display ∧
      t.rcv.function = s.rcv.function) ∧
    (∀ a, ∃ t, exec (.setCGRamAddr a) s = .next t ∧ t.rcv.busyUntil = t.now ∧ t.rcv.addr = none ∧
      t.rcv.ddram = s.rcv.ddram ∧ t.rcv.entry = s.rcv.entry ∧ t.rcv.display = s.rcv.display ∧
      t.rcv.function = s.rcv.function)

/-- R58: a SENDDATA to a controller in step puts its byte at the DDRAM address and nowhere else. These clauses are not the spec's
rules: that the address then moves up by one in left-to-right mode is general knowledge only (G9); that the byte is then known at
any of 128 addresses is log 4's choice (unsafe, N9); that the registers are kept is log 10's, and that the second nibble finds
the controller ready is log 11's. -/
def Obligations.SenddataLandsAtAddress : Prop :=
  ∀ (s : State) (b : Byte) (a : BitVec 7) (m : EntryMode), s.Free → s.cfg.Wf → s.InStep →
    okAnswers (2 * pulseWrites s.cfg) s.busIn = true → s.rcv.addr = some a → s.rcv.entry = some m → m.leftToRight = true →
    s.rcv.contentLost = false →
    ∃ t, exec (.senddata b) s = .next t ∧ t.rcv.executed = s.rcv.executed ++ [⟨true, b⟩] ∧
      Memory.read a.toNat t.rcv.ddram = some b ∧
      (∀ x, x ≠ a.toNat → Memory.read x t.rcv.ddram = Memory.read x s.rcv.ddram) ∧
      (a ≠ 0x7F#7 → t.rcv.addr = some (a + 1#7)) ∧ t.rcv.display = s.rcv.display ∧ t.rcv.entry = s.rcv.entry ∧
      t.rcv.function = s.rcv.function ∧ t.rcv.mode = .bit4 ∧ t.rcv.phase = .high

/-- R50, R58, R169: a single WRNIB to a controller in step is taken as a high half: the phase goes LOW, no byte is executed, and
DDRAM is as before. A SENDCMD or SENDDATA after it is misaligned: it does what it does to a controller whose mode is UNKNOWN and
whose content is any value (U16), and no display content is known afterwards. Initialize after it (the 1000 ms wait, then its
first nibble) finds the nibble misaligned too, so that no display content is known. That a nibble is Initialize's exactly while
the driver is Initializing is log 16's choice, and that the wait of the WRNIB leaves the controller ready is log 11's. -/
def Obligations.SingleNibbleShiftsPhase : Prop :=
  ∀ (s : State) (v : Byte), s.Free → s.cfg.Wf → s.InStep → s.drv.life ≠ .initializing →
    WellFormed.controlClear s.cfg v = true → okAnswers (pulseWrites s.cfg) s.busIn = true →
    ∃ t, exec (.wrnib v) s = .next t ∧ t.rcv.phase = .low ∧ t.rcv.high = v.extractLsb' 4 4 ∧ t.rcv.mode = .bit4 ∧
      t.rcv.executed = s.rcv.executed ∧ t.rcv.ddram = s.rcv.ddram ∧ t.rcv.addr = s.rcv.addr ∧
      (∀ (b : Byte) (rs : Bool), ∃ u, exec (if rs then .senddata b else .sendcmd b) t = .next u ∧
        exec (if rs then .senddata b else .sendcmd b) { t with rcv := t.rcv.lose } = .next u ∧
        u.rcv.contentLost = true ∧ u.rcv.ddram = []) ∧
      ∃ u w, exec (.waitus 1000000#24) { t with drv := { t.drv with life := .initializing } } = .next u ∧
        exec (.wrnib 0x30#8) u = .next w ∧ w.rcv.contentLost = true ∧ w.rcv.ddram = []

/-- R60, R161, R164, R166: a WRNIB, SENDCMD or SENDDATA that starts while the controller may still be busy, too soon after Clear or
Home, or inside the waits of a synchronisation, makes its mode UNKNOWN and its content any value. So does a SETBL too soon after
Clear or Home (R164), and, for the content, a SENDCMD or SENDDATA that starts anywhere but at a byte's first half in 4-bit framing
(R50, U16). The content stays so for good. And as long as Initialize has not been run in full since the controller was last lost, a
SENDCMD or SENDDATA leaves nothing known of the registers or the content (R162; logs 11 and 16). How long the controller is busy, and which
nibbles are a synchronisation, are log 11's choices. -/
def Obligations.BusyTransferLosesController : Prop :=
  (∀ (s : State) (v : Byte) (own : Bool), s.Free → s.cfg.Wf → WellFormed.controlClear s.cfg v = true →
    okAnswers (pulseWrites s.cfg) s.busIn = true →
    s.now < s.rcv.busyUntil ∨ s.now < s.rcv.quietUntil ∨
      (s.rcv.pairing = .syncing own ∧ 3 ≤ s.rcv.syncRow.length ∧ s.now < s.rcv.pulseEnd + 150) ∨
      (s.rcv.pairing = .syncing own ∧ isSyncNibble s.cfg v = true ∧ s.rcv.syncRow ≠ [] ∧ s.now < s.rcv.pulseEnd + 4500) →
    ∃ t, exec (.wrnib v) s = .next t ∧ t.rcv.mode = .unknown ∧ t.rcv.contentLost = true ∧ t.rcv.ddram = []) ∧
  (∀ (s : State) (b : Byte) (rs own : Bool), s.Free → s.cfg.Wf → okAnswers (2 * pulseWrites s.cfg) s.busIn = true →
    s.now < s.rcv.busyUntil ∨ s.now < s.rcv.quietUntil ∨
      (s.rcv.pairing = .syncing own ∧ 3 ≤ s.rcv.syncRow.length ∧ s.now < s.rcv.pulseEnd + 150) →
    ∃ t, exec (if rs then .senddata b else .sendcmd b) s = .next t ∧
      t.rcv.mode = .unknown ∧ t.rcv.contentLost = true ∧ t.rcv.ddram = []) ∧
  (∀ (s : State) (b : Byte) (rs : Bool), s.Free →
    s.rcv.mode ≠ .bit4 ∨ s.rcv.phase = .low ∨ s.rcv.pairing ≠ .between →
    ∃ t, exec (if rs then .senddata b else .sendcmd b) s = .next t ∧ t.rcv.contentLost = true ∧ t.rcv.ddram = []) ∧
  (∀ (s : State) (x : Bool), s.Free → okAnswers 1 s.busIn = true → s.now < s.rcv.quietUntil →
    ∃ t, exec (.setbl x) s = .next t ∧ t.rcv.contentLost = true ∧ t.rcv.ddram = [] ∧ (s.ELow → t.rcv.mode = .unknown)) ∧
  (∀ (s : State) (b : Byte) (rs : Bool), s.Free → s.cfg.Wf → okAnswers (2 * pulseWrites s.cfg) s.busIn = true →
    s.rcv.setup = .missing →
    ∃ t, exec (if rs then .senddata b else .sendcmd b) s = .next t ∧ t.rcv.setup = .missing ∧ t.rcv.addr = none ∧
      t.rcv.entry = none ∧ t.rcv.display = none ∧ t.rcv.function = none ∧ t.rcv.ddram = []) ∧
  ∀ s t : State, s.Inv → step s = .next t → s.rcv.contentLost = true →
    t.rcv.contentLost = true ∧ t.rcv.ddram = []

/-! ## The host driver -/

/-- R119, R148: an operation before `Ready`, or on a failed driver, is refused, and no request is issued. -/
def Obligations.OperationNeedsReady : Prop :=
  ∀ (s : State) (o : DriverOp) (rest : List HostInput), s.HostFree → s.hostIn = .op o :: rest →
    s.drv.life ≠ .ready → step s = .refused .driverNotReady

/-- R126: SetBacklight makes one SETBL; the flag and `BL` keep the new value even when its write fails. -/
def Obligations.SetBacklightWritesOnce : Prop :=
  ∀ (s : State) (x : Bool) (a : BusAnswer) (as : List BusAnswer), s.Asked (.setBacklight x) → s.busIn = a :: as →
    ∃ t, Host.Core.run core 3 s = .next t ∧
      t.trace = s.trace ++ [.write (if x then BitVec.twoPow 8 s.cfg.blBit.val else 0x00#8)
        (if a.wrOk then .ok else .err a.wrErr)] ∧
      t.ntx.req = 0x04#8 ++ (0#23 ++ BitVec.ofBool x) ∧ t.ntx.bl = x ∧ t.hostIn = s.hostIn.tail ∧
      t.drv = { s.drv with
        backlight := x, result := if a.wrOk then .ok else .failed 1#2 a.wrErr }

/-- R127: the composite carries opcode 0x08 and all three flags. -/
def Obligations.CompositeCarriesAllFlags : Prop :=
  ∀ d : Driver, displayControlByte d = 0b00001#5 ++ (BitVec.ofBool d.displayOn ++ (BitVec.ofBool d.cursorOn ++
    BitVec.ofBool d.blinkOn)) ∧
    encodeCommand (.displayControl d.displayOn d.cursorOn d.blinkOn) = some (displayControlByte d)

/-- R127, R128, R129: SetDisplayOn, SetCursor and SetBlink write their flag and send one composite of the flags as they then
are, and leave the backlight alone. -/
def Obligations.FlagSettersSendComposite : Prop :=
  ∀ (s : State) (o : DriverOp) (d : Driver) (x : Bool), s.Asked o →
    (o = .setDisplayOn x ∧ d = { s.drv with displayOn := x } ∨ o = .setCursor x ∧ d = { s.drv with cursorOn := x } ∨
      o = .setBlink x ∧ d = { s.drv with blinkOn := x }) →
    okAnswers (2 * pulseWrites s.cfg) s.busIn = true →
    ∃ t, Host.Core.run core 3 s = .next t ∧
      t.trace = s.trace ++ byteEvents s.cfg s.ntx.bl (displayControlByte d) false ∧ t.ntx.bl = s.ntx.bl ∧
      t.drv = { d with result := .ok }

/-- R130, R131: Clear and Home send their command and then wait 2000 µs. -/
def Obligations.ClearAndHomeWait : Prop :=
  ∀ (s : State) (o : DriverOp) (b : Byte), s.Asked o → s.cfg.Wf → (o = .clear ∧ b = 0x01#8 ∨ o = .home ∧ b = 0x02#8) →
    okAnswers (2 * pulseWrites s.cfg) s.busIn = true →
    ∃ t, Host.Core.run core 4 s = .next t ∧
      t.trace = s.trace ++ byteEvents s.cfg s.ntx.bl b false ++ [.delay 2000] ∧ t.drv = { s.drv with result := .ok }

/-- R132, R146: a row outside 0..3 is an index failure, whatever the column, with no traffic. -/
def Obligations.RowOutsideTableFails : Prop :=
  ∀ (s : State) (col row : Int), s.Asked (.setCursorPosition col row) → row < 0 ∨ 4 ≤ row →
    step s = .fault (.rowIndex row)

/-- R133: inside the domain SetCursorPosition sends `0x80 + RowOffsetTable[row] + col`; outside it, it is refused, whatever the
bus would answer. -/
def Obligations.CursorPositionSendsAddress : Prop :=
  ∀ (s : State) (col : Int) (row : Fin 4), s.Asked (.setCursorPosition col (row.val : Int)) →
    (0 ≤ col ∧ ([0x00, 0x40, 0x14, 0x54].getD row.val 0 : Int) + col ≤ 0x7F →
      okAnswers (2 * pulseWrites s.cfg) s.busIn = true →
      ∃ t, Host.Core.run core 3 s = .next t ∧ t.drv = { s.drv with result := .ok } ∧
        t.trace = s.trace ++ byteEvents s.cfg s.ntx.bl
          (BitVec.ofNat 8 (0x80 + [0x00, 0x40, 0x14, 0x54].getD row.val 0 + col.toNat)) false) ∧
    (¬ (0 ≤ col ∧ ([0x00, 0x40, 0x14, 0x54].getD row.val 0 : Int) + col ≤ 0x7F) →
      step s = .refused (.columnOutsideDomain col (row.val : Int)))

/-- R135: Print of a 7-bit text sends each character's code in order; a text with any other character is refused, whatever the
bus would answer. -/
def Obligations.PrintSendsEveryCharacter : Prop :=
  ∀ (s : State) (text : List Nat), s.Asked (.print text) →
    ((∀ c ∈ text, c < 0x80) → okAnswers (2 * pulseWrites s.cfg * text.length) s.busIn = true →
      ∃ t, Host.Core.run core (text.length + 2) s = .next t ∧ t.drv = { s.drv with result := .ok } ∧
        t.trace = s.trace ++ text.flatMap fun c => byteEvents s.cfg s.ntx.bl (BitVec.ofNat 8 c) true) ∧
    ((∃ c ∈ text, 0x80 ≤ c) → step s = .refused .textNotSevenBit)

/-- R118, R125, R137: an error response ends the operation, whatever it still had to do, and is passed on unmodified; it fails
a driver under construction and leaves a Ready one Ready. -/
def Obligations.ErrorResponseEndsOperation : Prop :=
  ∀ (s : State) (todo : List HostLine), s.HostsTurn →
    s.drv.job = some { todo := todo, awaiting := true } → s.ntx.rspValid = true →
    s.ntx.rspStatus = 1#2 ∨ s.ntx.rspStatus = 2#2 →
    step s = .next { tick s with drv := { s.drv with
      life := if s.drv.life = .initializing then .failed else s.drv.life
      job := none
      result := .failed s.ntx.rspStatus s.ntx.rspInfo } }

/-- R119, R120 to R123, R172: constructing a driver runs the 15 requests of Initialize, with this trace of 14 pulses, and leaves
the driver Ready with the display on; with P_INIT_BL_WRITE, `SETBL 1` comes first, with its one write. R120 presumes `BL = 1`:
that at `BL = 0`, without P_INIT_BL_WRITE, `BL` stays 0 and the writes carry no backlight, although the driver's flag is true, is
log 13's choice (unsafe). -/
def Obligations.InitializeRunsTheFixedSequence : Prop :=
  ∀ (s : State) (rest : List HostInput) (bl : Bool), s.HostFree → s.hostIn = .construct :: rest → s.cfg.Wf →
    bl = (s.cfg.initBlWrite || s.ntx.bl) →
    okAnswers ((if s.cfg.initBlWrite then 1 else 0) + 14 * pulseWrites s.cfg) s.busIn = true →
    ∃ t, Host.Core.run core (if s.cfg.initBlWrite then 19 else 18) s = .next t ∧
      t.drv = ⟨.ready, true, true, false, false, none, .ok⟩ ∧ t.hostIn = rest ∧ t.ntx.bl = bl ∧
      t.ntx.rspStatus = 0#2 ∧
      t.trace = s.trace ++ (if s.cfg.initBlWrite then [.write (BitVec.twoPow 8 s.cfg.blBit.val) .ok] else []) ++
        [.delay 1000000] ++
        pulseEvents s.cfg bl 0x30#8 ++ [.delay 4500] ++ pulseEvents s.cfg bl 0x30#8 ++ [.delay 4500] ++
        pulseEvents s.cfg bl 0x30#8 ++ [.delay 150] ++ pulseEvents s.cfg bl 0x20#8 ++
        byteEvents s.cfg bl 0x28#8 false ++ byteEvents s.cfg bl 0x0C#8 false ++
        byteEvents s.cfg bl 0x01#8 false ++ [.delay 2000] ++ byteEvents s.cfg bl 0x06#8 false ++
        byteEvents s.cfg bl 0x02#8 false ++ [.delay 2000]

/-- R124, R59 (reference receiver): wherever the controller was, and whatever the free values, Initialize brings it into 4-bit
framing at the high half, the five configuration bytes are the last it executes, and SENDCMD and SENDDATA can be relied on (R162).
The framing is general knowledge (G10). These clauses are the model's choice: that the controller is ready after each wait, if the 1000 ms wait outlasts what it was busy with
(log 11), and that the registers are kept across the later commands (log 10). With the settle write, a pulse from pins with E not
known to be low could make two falling edges 1 µs apart, and is left out, unless P_INIT_BL_WRITE has SETBL lower E first. The
invariant (StepKeepsInvariant) has the last pulse over while NTX is IDLE. Where no byte was half sent and no synchronisation begun
before it, and no SETBL of its own can make a transfer too soon, Initialize meets no hazard: content is lost after it only if it
was before (R121, R166). -/
def Obligations.InitializeRecoversController : Prop :=
  ∀ (s : State) (rest : List HostInput), s.HostFree → s.hostIn = .construct :: rest → s.cfg.Wf →
    s.cfg.settle = false ∨ s.ELow ∨ s.cfg.initBlWrite = true →
    (s.cfg.initBlWrite = true → s.cfg.tEh + s.cfg.tPost + 2000 ≤ 1000000) →
    okAnswers ((if s.cfg.initBlWrite then 1 else 0) + 14 * pulseWrites s.cfg) s.busIn = true →
    s.rcv.busyUntil ≤ s.now + 1000000 → s.rcv.quietUntil ≤ s.now + 1000000 → s.rcv.pulseEnd ≤ s.now →
    ∃ t before, Host.Core.run core (if s.cfg.initBlWrite then 19 else 18) s = .next t ∧
      t.rcv.mode = .bit4 ∧ t.rcv.phase = .high ∧ t.rcv.setup = .complete ∧
      t.rcv.busyUntil ≤ t.now ∧ t.rcv.display = some ⟨true, false, false⟩ ∧ t.rcv.entry = some ⟨true, false⟩ ∧
      t.rcv.function = some ⟨false, true, false⟩ ∧
      t.rcv.executed = before ++
        [⟨false, 0x28#8⟩, ⟨false, 0x0C#8⟩, ⟨false, 0x01#8⟩, ⟨false, 0x06#8⟩, ⟨false, 0x02#8⟩] ∧
      (s.rcv.pairing = .lost ∨ s.rcv.pairing = .between →
        s.cfg.initBlWrite = false ∨ s.rcv.busyUntil ≤ s.now ∧ s.rcv.quietUntil ≤ s.now →
        t.rcv.contentLost = s.rcv.contentLost)
end

