-- ==== Sys2Proof/Laws/Decode.lean ====
section
/-! SUPPORT. The bits and the fields of an encoded request word. -/

namespace Sys2Proof

/-- Bit `i` of a REQ32 word with an 8-bit operand (R66). -/
theorem encodeByteRequest_bit (op v : Byte) (i : Nat) :
    (encodeByteRequest op v).getLsbD i =
      if i < 8 then v.getLsbD i else if i < 24 then false else op.getLsbD (i - 24) := by
  unfold encodeByteRequest
  simp only [BitVec.getLsbD_append]
  by_cases h8 : i < 8
  · simp [h8, show i < 24 by omega]
  · by_cases h24 : i < 24
    · simp [h8, h24]
    · simp [h8, h24]

/-- `OP` of a REQ32 word with an 8-bit operand. -/
@[simp] theorem encodeByteRequest_op (op v : Byte) : (encodeByteRequest op v).extractLsb' 24 8 = op := by
  apply BitVec.eq_of_getLsbD_eq
  intro i hi
  rw [BitVec.getLsbD_extractLsb', encodeByteRequest_bit]
  simp [hi, show ¬ 24 + i < 8 by omega]

/-- `ARG[7:0]` of a REQ32 word with an 8-bit operand. -/
@[simp] theorem encodeByteRequest_operand (op v : Byte) : (encodeByteRequest op v).extractLsb' 0 8 = v := by
  apply BitVec.eq_of_getLsbD_eq
  intro i hi
  rw [BitVec.getLsbD_extractLsb', encodeByteRequest_bit]
  simp [hi]

/-- `ARG[23:8]` of a REQ32 word with an 8-bit operand. -/
@[simp] theorem encodeByteRequest_reserved (op v : Byte) : (encodeByteRequest op v).extractLsb' 8 16 = 0#16 := by
  apply BitVec.eq_of_getLsbD_eq
  intro i hi
  rw [BitVec.getLsbD_extractLsb', encodeByteRequest_bit]
  simp [hi, show 8 + i < 24 by omega]

/-- The word as `OP`, 16 zero bits and the operand, read in one go. -/
theorem encodeByteRequest_eq (op v : Byte) : encodeByteRequest op v = (op ++ 0#16) ++ v := by
  apply BitVec.eq_of_getLsbD_eq
  intro i hi
  rw [encodeByteRequest_bit]
  simp only [BitVec.getLsbD_append]
  by_cases h8 : i < 8
  · simp [h8]
  · by_cases h24 : i < 24
    · simp [h8, h24, show i - 8 < 16 by omega]
    · simp [h8, h24, show ¬ i - 8 < 16 by omega, show i - 8 - 16 = i - 24 by omega]

/-- A field of `ARG` is a field of the word: no bit is moved (R73). -/
theorem argument_field (w : Word) (k n : Nat) (h : k + n ≤ 24) :
    (w.extractLsb' 0 24).extractLsb' k n = w.extractLsb' k n := by
  apply BitVec.eq_of_getLsbD_eq
  intro i hi
  simp [hi, show k + i < 24 by omega]

/-- A bit of `ARG` is the word's bit (R73). -/
theorem argument_bit (w : Word) (i : Nat) (h : i < 24) : (w.extractLsb' 0 24).getLsbD i = w.getLsbD i := by
  simp [h]

/-- The bits of a count above position `k` are zero exactly when the count is below `2 ^ k` (R71). -/
theorem waitCount_fits (n : BitVec 24) (k : Nat) : n >>> k = 0#24 ↔ n.toNat < 2 ^ k := by
  rw [← BitVec.toNat_inj, BitVec.toNat_ushiftRight, Nat.shiftRight_eq_div_pow]
  exact Nat.div_eq_zero_iff.trans (by simp)

/-- R73 read on the word itself: the five conditions and the operand fields. -/
theorem decodeRequest_fields (p : Params) (w : Word) :
    decodeRequest p w =
      if w.extractLsb' 24 8 = 0x01#8 ∧ w.extractLsb' 8 16 = 0#16 ∧ w.getLsbD p.eBit.val = false ∧
          w.getLsbD p.rwBit.val = false then .wrnib (w.extractLsb' 0 8)
      else if w.extractLsb' 24 8 = 0x02#8 ∧ w.extractLsb' 8 16 = 0#16 then .sendcmd (w.extractLsb' 0 8)
      else if w.extractLsb' 24 8 = 0x03#8 ∧ w.extractLsb' 8 16 = 0#16 then .senddata (w.extractLsb' 0 8)
      else if w.extractLsb' 24 8 = 0x04#8 ∧ w.extractLsb' 1 23 = 0#23 then .setbl (w.getLsbD 0)
      else if w.extractLsb' 24 8 = 0x05#8 ∧ (w.extractLsb' 0 24).toNat < 2 ^ p.waitBits then .waitus (w.extractLsb' 0 24)
      else .illegal w := by
  have h1 := p.eBit.isLt
  have h2 := p.rwBit.isLt
  unfold decodeRequest
  simp only [argument_field w 8 16 (by omega), argument_field w 0 8 (by omega), argument_field w 1 23 (by omega),
    argument_bit w p.eBit.val (by omega), argument_bit w p.rwBit.val (by omega), argument_bit w 0 (by omega),
    waitCount_fits]

end Sys2Proof
end

