-- ==== Sys2Proof/Laws/State.lean ====
section
/-! SUPPORT. Each operation of Machine/Ops.lean, field by field: what it writes, and that it leaves the rest. -/

namespace Sys2Proof.Machine

/-! ## The signals of the bus port -/

@[simp] theorem Ntx.busWrValid_eq (n : Ntx) : n.busWrValid = n.busWr.isSome := rfl
@[simp] theorem Ntx.busWrData_eq (n : Ntx) : n.busWrData = n.busWr := rfl

/-! ## tick -/

@[simp] theorem tick_cfg (s : State) : (tick s).cfg = s.cfg := rfl
@[simp] theorem tick_ntx (s : State) : (tick s).ntx = s.ntx := rfl
@[simp] theorem tick_rcv (s : State) : (tick s).rcv = s.rcv := rfl
@[simp] theorem tick_drv (s : State) : (tick s).drv = s.drv := rfl
@[simp] theorem tick_trace (s : State) : (tick s).trace = s.trace := rfl
@[simp] theorem tick_now (s : State) : (tick s).now = s.now := rfl
@[simp] theorem tick_busIn (s : State) : (tick s).busIn = s.busIn := rfl
@[simp] theorem tick_hostIn (s : State) : (tick s).hostIn = s.hostIn := rfl
@[simp] theorem tick_rstIn (s : State) : (tick s).rstIn = s.rstIn.modifyHead (· - 1) := rfl
@[simp] theorem tick_rstSeen (s : State) : (tick s).rstSeen = s.rstSeen := rfl

/-! ## accept -/

@[simp] theorem accept_cfg (w : Word) (s : State) : (accept w s).cfg = s.cfg := rfl
@[simp] theorem accept_rcv (w : Word) (s : State) : (accept w s).rcv = s.rcv := rfl
@[simp] theorem accept_drv (w : Word) (s : State) : (accept w s).drv = s.drv := rfl
@[simp] theorem accept_trace (w : Word) (s : State) : (accept w s).trace = s.trace := rfl
@[simp] theorem accept_now (w : Word) (s : State) : (accept w s).now = s.now := rfl
@[simp] theorem accept_busIn (w : Word) (s : State) : (accept w s).busIn = s.busIn := rfl
@[simp] theorem accept_hostIn (w : Word) (s : State) : (accept w s).hostIn = s.hostIn := rfl
@[simp] theorem accept_rstIn (w : Word) (s : State) : (accept w s).rstIn = s.rstIn := rfl
@[simp] theorem accept_rstSeen (w : Word) (s : State) : (accept w s).rstSeen = s.rstSeen := rfl
@[simp] theorem accept_ntx_bl (w : Word) (s : State) : (accept w s).ntx.bl = s.ntx.bl := rfl
@[simp] theorem accept_ntx_fsm (w : Word) (s : State) : (accept w s).ntx.fsm = .busy := rfl
@[simp] theorem accept_ntx_todo (w : Word) (s : State) : (accept w s).ntx.todo = s.ntx.todo := rfl
@[simp] theorem accept_ntx_req (w : Word) (s : State) : (accept w s).ntx.req = w := rfl
@[simp] theorem accept_ntx_tmr (w : Word) (s : State) : (accept w s).ntx.tmr = s.ntx.tmr := rfl
@[simp] theorem accept_ntx_errs (w : Word) (s : State) : (accept w s).ntx.errs = s.ntx.errs := rfl
@[simp] theorem accept_ntx_rspStatus (w : Word) (s : State) : (accept w s).ntx.rspStatus = s.ntx.rspStatus := rfl
@[simp] theorem accept_ntx_rspInfo (w : Word) (s : State) : (accept w s).ntx.rspInfo = s.ntx.rspInfo := rfl
@[simp] theorem accept_ntx_rspValid (w : Word) (s : State) : (accept w s).ntx.rspValid = false := rfl
@[simp] theorem accept_ntx_busWr (w : Word) (s : State) : (accept w s).ntx.busWr = s.ntx.busWr := rfl

/-! ## respond -/

@[simp] theorem respond_cfg (st : BitVec 2) (s : State) : (respond st s).cfg = s.cfg := rfl
@[simp] theorem respond_rcv (st : BitVec 2) (s : State) : (respond st s).rcv = s.rcv := rfl
@[simp] theorem respond_drv (st : BitVec 2) (s : State) : (respond st s).drv = s.drv := rfl
@[simp] theorem respond_trace (st : BitVec 2) (s : State) : (respond st s).trace = s.trace := rfl
@[simp] theorem respond_now (st : BitVec 2) (s : State) : (respond st s).now = s.now := rfl
@[simp] theorem respond_busIn (st : BitVec 2) (s : State) : (respond st s).busIn = s.busIn := rfl
@[simp] theorem respond_hostIn (st : BitVec 2) (s : State) : (respond st s).hostIn = s.hostIn := rfl
@[simp] theorem respond_rstIn (st : BitVec 2) (s : State) : (respond st s).rstIn = s.rstIn := rfl
@[simp] theorem respond_rstSeen (st : BitVec 2) (s : State) : (respond st s).rstSeen = s.rstSeen := rfl
@[simp] theorem respond_ntx_bl (st : BitVec 2) (s : State) : (respond st s).ntx.bl = s.ntx.bl := rfl
@[simp] theorem respond_ntx_fsm (st : BitVec 2) (s : State) : (respond st s).ntx.fsm = .idle := rfl
@[simp] theorem respond_ntx_todo (st : BitVec 2) (s : State) : (respond st s).ntx.todo = [] := rfl
@[simp] theorem respond_ntx_req (st : BitVec 2) (s : State) : (respond st s).ntx.req = s.ntx.req := rfl
@[simp] theorem respond_ntx_tmr (st : BitVec 2) (s : State) : (respond st s).ntx.tmr = s.ntx.tmr := rfl
@[simp] theorem respond_ntx_errs (st : BitVec 2) (s : State) : (respond st s).ntx.errs = s.ntx.errs := rfl
@[simp] theorem respond_ntx_rspStatus (st : BitVec 2) (s : State) : (respond st s).ntx.rspStatus = st := rfl
@[simp] theorem respond_ntx_rspInfo (st : BitVec 2) (s : State) : (respond st s).ntx.rspInfo = s.ntx.rspInfo := rfl
@[simp] theorem respond_ntx_rspValid (st : BitVec 2) (s : State) : (respond st s).ntx.rspValid = true := rfl
@[simp] theorem respond_ntx_busWr (st : BitVec 2) (s : State) :
    (respond st s).ntx.busWr = s.ntx.busWr := rfl

/-! ## raiseIllegal -/

@[simp] theorem raiseIllegal_cfg (s : State) : (raiseIllegal s).cfg = s.cfg := rfl
@[simp] theorem raiseIllegal_rcv (s : State) : (raiseIllegal s).rcv = s.rcv := rfl
@[simp] theorem raiseIllegal_drv (s : State) : (raiseIllegal s).drv = s.drv := rfl
@[simp] theorem raiseIllegal_trace (s : State) : (raiseIllegal s).trace = s.trace := rfl
@[simp] theorem raiseIllegal_now (s : State) : (raiseIllegal s).now = s.now := rfl
@[simp] theorem raiseIllegal_busIn (s : State) : (raiseIllegal s).busIn = s.busIn := rfl
@[simp] theorem raiseIllegal_hostIn (s : State) : (raiseIllegal s).hostIn = s.hostIn := rfl
@[simp] theorem raiseIllegal_rstIn (s : State) : (raiseIllegal s).rstIn = s.rstIn := rfl
@[simp] theorem raiseIllegal_rstSeen (s : State) : (raiseIllegal s).rstSeen = s.rstSeen := rfl
@[simp] theorem raiseIllegal_ntx_bl (s : State) : (raiseIllegal s).ntx.bl = s.ntx.bl := rfl
@[simp] theorem raiseIllegal_ntx_fsm (s : State) : (raiseIllegal s).ntx.fsm = .idle := rfl
@[simp] theorem raiseIllegal_ntx_todo (s : State) : (raiseIllegal s).ntx.todo = [] := rfl
@[simp] theorem raiseIllegal_ntx_req (s : State) : (raiseIllegal s).ntx.req = s.ntx.req := rfl
@[simp] theorem raiseIllegal_ntx_tmr (s : State) : (raiseIllegal s).ntx.tmr = s.ntx.tmr := rfl
@[simp] theorem raiseIllegal_ntx_errs (s : State) : (raiseIllegal s).ntx.errs = s.ntx.errs := rfl
@[simp] theorem raiseIllegal_ntx_rspStatus (s : State) : (raiseIllegal s).ntx.rspStatus = statusIllegal := rfl
@[simp] theorem raiseIllegal_ntx_rspInfo (s : State) : (raiseIllegal s).ntx.rspInfo = s.ntx.rspInfo := rfl
@[simp] theorem raiseIllegal_ntx_rspValid (s : State) : (raiseIllegal s).ntx.rspValid = true := rfl
@[simp] theorem raiseIllegal_ntx_busWr (s : State) : (raiseIllegal s).ntx.busWr = s.ntx.busWr := rfl

/-! ## raiseBusError -/

@[simp] theorem raiseBusError_cfg (e : BusErr) (s : State) : (raiseBusError e s).cfg = s.cfg := rfl
@[simp] theorem raiseBusError_rcv (e : BusErr) (s : State) : (raiseBusError e s).rcv = s.rcv := rfl
@[simp] theorem raiseBusError_drv (e : BusErr) (s : State) : (raiseBusError e s).drv = s.drv := rfl
@[simp] theorem raiseBusError_trace (e : BusErr) (s : State) : (raiseBusError e s).trace = s.trace := rfl
@[simp] theorem raiseBusError_now (e : BusErr) (s : State) : (raiseBusError e s).now = s.now := rfl
@[simp] theorem raiseBusError_busIn (e : BusErr) (s : State) : (raiseBusError e s).busIn = s.busIn := rfl
@[simp] theorem raiseBusError_hostIn (e : BusErr) (s : State) : (raiseBusError e s).hostIn = s.hostIn := rfl
@[simp] theorem raiseBusError_rstIn (e : BusErr) (s : State) : (raiseBusError e s).rstIn = s.rstIn := rfl
@[simp] theorem raiseBusError_rstSeen (e : BusErr) (s : State) : (raiseBusError e s).rstSeen = s.rstSeen := rfl
@[simp] theorem raiseBusError_ntx_bl (e : BusErr) (s : State) : (raiseBusError e s).ntx.bl = s.ntx.bl := rfl
@[simp] theorem raiseBusError_ntx_fsm (e : BusErr) (s : State) : (raiseBusError e s).ntx.fsm = .idle := rfl
@[simp] theorem raiseBusError_ntx_todo (e : BusErr) (s : State) : (raiseBusError e s).ntx.todo = [] := rfl
@[simp] theorem raiseBusError_ntx_req (e : BusErr) (s : State) : (raiseBusError e s).ntx.req = s.ntx.req := rfl
@[simp] theorem raiseBusError_ntx_tmr (e : BusErr) (s : State) : (raiseBusError e s).ntx.tmr = s.ntx.tmr := rfl
@[simp] theorem raiseBusError_ntx_errs (e : BusErr) (s : State) : (raiseBusError e s).ntx.errs = true := rfl
@[simp] theorem raiseBusError_ntx_rspStatus (e : BusErr) (s : State) :
    (raiseBusError e s).ntx.rspStatus = statusBusError := rfl
@[simp] theorem raiseBusError_ntx_rspInfo (e : BusErr) (s : State) : (raiseBusError e s).ntx.rspInfo = e := rfl
@[simp] theorem raiseBusError_ntx_rspValid (e : BusErr) (s : State) : (raiseBusError e s).ntx.rspValid = true := rfl
@[simp] theorem raiseBusError_ntx_busWr (e : BusErr) (s : State) :
    (raiseBusError e s).ntx.busWr = s.ntx.busWr := rfl

/-! ## awaitBus -/

@[simp] theorem awaitBus_cfg (v : Byte) (ls : List Line) (s : State) : (awaitBus v ls s).cfg = s.cfg := rfl
@[simp] theorem awaitBus_rcv (v : Byte) (ls : List Line) (s : State) : (awaitBus v ls s).rcv = s.rcv := rfl
@[simp] theorem awaitBus_drv (v : Byte) (ls : List Line) (s : State) : (awaitBus v ls s).drv = s.drv := rfl
@[simp] theorem awaitBus_trace (v : Byte) (ls : List Line) (s : State) : (awaitBus v ls s).trace = s.trace := rfl
@[simp] theorem awaitBus_now (v : Byte) (ls : List Line) (s : State) : (awaitBus v ls s).now = s.now := rfl
@[simp] theorem awaitBus_busIn (v : Byte) (ls : List Line) (s : State) : (awaitBus v ls s).busIn = s.busIn := rfl
@[simp] theorem awaitBus_hostIn (v : Byte) (ls : List Line) (s : State) : (awaitBus v ls s).hostIn = s.hostIn := rfl
@[simp] theorem awaitBus_rstIn (v : Byte) (ls : List Line) (s : State) : (awaitBus v ls s).rstIn = s.rstIn := rfl
@[simp] theorem awaitBus_rstSeen (v : Byte) (ls : List Line) (s : State) : (awaitBus v ls s).rstSeen = s.rstSeen := rfl
@[simp] theorem awaitBus_ntx_bl (v : Byte) (ls : List Line) (s : State) : (awaitBus v ls s).ntx.bl = s.ntx.bl := rfl
@[simp] theorem awaitBus_ntx_fsm (v : Byte) (ls : List Line) (s : State) :
    (awaitBus v ls s).ntx.fsm = s.ntx.fsm := rfl
@[simp] theorem awaitBus_ntx_todo (v : Byte) (ls : List Line) (s : State) : (awaitBus v ls s).ntx.todo = ls := rfl
@[simp] theorem awaitBus_ntx_req (v : Byte) (ls : List Line) (s : State) :
    (awaitBus v ls s).ntx.req = s.ntx.req := rfl
@[simp] theorem awaitBus_ntx_tmr (v : Byte) (ls : List Line) (s : State) :
    (awaitBus v ls s).ntx.tmr = s.ntx.tmr := rfl
@[simp] theorem awaitBus_ntx_errs (v : Byte) (ls : List Line) (s : State) :
    (awaitBus v ls s).ntx.errs = s.ntx.errs := rfl
@[simp] theorem awaitBus_ntx_rspStatus (v : Byte) (ls : List Line) (s : State) :
    (awaitBus v ls s).ntx.rspStatus = s.ntx.rspStatus := rfl
@[simp] theorem awaitBus_ntx_rspInfo (v : Byte) (ls : List Line) (s : State) :
    (awaitBus v ls s).ntx.rspInfo = s.ntx.rspInfo := rfl
@[simp] theorem awaitBus_ntx_rspValid (v : Byte) (ls : List Line) (s : State) :
    (awaitBus v ls s).ntx.rspValid = s.ntx.rspValid := rfl
@[simp] theorem awaitBus_ntx_busWr (v : Byte) (ls : List Line) (s : State) :
    (awaitBus v ls s).ntx.busWr = some v := rfl

/-! ## completeWrite -/

@[simp] theorem completeWrite_cfg (v : Byte) (r : BusResult) (s : State) : (completeWrite v r s).cfg = s.cfg := rfl
@[simp] theorem completeWrite_rcv (v : Byte) (r : BusResult) (s : State) : (completeWrite v r s).rcv = s.rcv := rfl
@[simp] theorem completeWrite_drv (v : Byte) (r : BusResult) (s : State) : (completeWrite v r s).drv = s.drv := rfl
@[simp] theorem completeWrite_trace (v : Byte) (r : BusResult) (s : State) :
    (completeWrite v r s).trace = s.trace ++ [.write v r] := rfl
@[simp] theorem completeWrite_now (v : Byte) (r : BusResult) (s : State) : (completeWrite v r s).now = s.now := rfl
@[simp] theorem completeWrite_busIn (v : Byte) (r : BusResult) (s : State) :
    (completeWrite v r s).busIn = s.busIn := rfl
@[simp] theorem completeWrite_hostIn (v : Byte) (r : BusResult) (s : State) :
    (completeWrite v r s).hostIn = s.hostIn := rfl
@[simp] theorem completeWrite_rstIn (v : Byte) (r : BusResult) (s : State) :
    (completeWrite v r s).rstIn = s.rstIn := rfl
@[simp] theorem completeWrite_rstSeen (v : Byte) (r : BusResult) (s : State) :
    (completeWrite v r s).rstSeen = s.rstSeen := rfl
@[simp] theorem completeWrite_ntx_bl (v : Byte) (r : BusResult) (s : State) :
    (completeWrite v r s).ntx.bl = s.ntx.bl := rfl
@[simp] theorem completeWrite_ntx_fsm (v : Byte) (r : BusResult) (s : State) :
    (completeWrite v r s).ntx.fsm = s.ntx.fsm := rfl
@[simp] theorem completeWrite_ntx_todo (v : Byte) (r : BusResult) (s : State) :
    (completeWrite v r s).ntx.todo = s.ntx.todo := rfl
@[simp] theorem completeWrite_ntx_req (v : Byte) (r : BusResult) (s : State) :
    (completeWrite v r s).ntx.req = s.ntx.req := rfl
@[simp] theorem completeWrite_ntx_tmr (v : Byte) (r : BusResult) (s : State) :
    (completeWrite v r s).ntx.tmr = s.ntx.tmr := rfl
@[simp] theorem completeWrite_ntx_errs (v : Byte) (r : BusResult) (s : State) :
    (completeWrite v r s).ntx.errs = s.ntx.errs := rfl
@[simp] theorem completeWrite_ntx_rspStatus (v : Byte) (r : BusResult) (s : State) :
    (completeWrite v r s).ntx.rspStatus = s.ntx.rspStatus := rfl
@[simp] theorem completeWrite_ntx_rspInfo (v : Byte) (r : BusResult) (s : State) :
    (completeWrite v r s).ntx.rspInfo = s.ntx.rspInfo := rfl
@[simp] theorem completeWrite_ntx_rspValid (v : Byte) (r : BusResult) (s : State) :
    (completeWrite v r s).ntx.rspValid = s.ntx.rspValid := rfl
@[simp] theorem completeWrite_ntx_busWr (v : Byte) (r : BusResult) (s : State) :
    (completeWrite v r s).ntx.busWr = none := rfl

/-! ## writeOk -/

@[simp] theorem writeOk_cfg (v : Byte) (s : State) : (writeOk v s).cfg = s.cfg := rfl
@[simp] theorem writeOk_rcv (v : Byte) (s : State) : (writeOk v s).rcv = s.rcv.observe s.cfg s.now v := rfl
@[simp] theorem writeOk_drv (v : Byte) (s : State) : (writeOk v s).drv = s.drv := rfl
@[simp] theorem writeOk_trace (v : Byte) (s : State) : (writeOk v s).trace = s.trace ++ [.write v .ok] := rfl
@[simp] theorem writeOk_now (v : Byte) (s : State) : (writeOk v s).now = s.now := rfl
@[simp] theorem writeOk_busIn (v : Byte) (s : State) : (writeOk v s).busIn = s.busIn := rfl
@[simp] theorem writeOk_hostIn (v : Byte) (s : State) : (writeOk v s).hostIn = s.hostIn := rfl
@[simp] theorem writeOk_rstIn (v : Byte) (s : State) : (writeOk v s).rstIn = s.rstIn := rfl
@[simp] theorem writeOk_rstSeen (v : Byte) (s : State) : (writeOk v s).rstSeen = s.rstSeen := rfl
@[simp] theorem writeOk_ntx_bl (v : Byte) (s : State) : (writeOk v s).ntx.bl = s.ntx.bl := rfl
@[simp] theorem writeOk_ntx_fsm (v : Byte) (s : State) : (writeOk v s).ntx.fsm = s.ntx.fsm := rfl
@[simp] theorem writeOk_ntx_todo (v : Byte) (s : State) : (writeOk v s).ntx.todo = s.ntx.todo := rfl
@[simp] theorem writeOk_ntx_req (v : Byte) (s : State) : (writeOk v s).ntx.req = s.ntx.req := rfl
@[simp] theorem writeOk_ntx_tmr (v : Byte) (s : State) : (writeOk v s).ntx.tmr = s.ntx.tmr := rfl
@[simp] theorem writeOk_ntx_errs (v : Byte) (s : State) : (writeOk v s).ntx.errs = s.ntx.errs := rfl
@[simp] theorem writeOk_ntx_rspStatus (v : Byte) (s : State) : (writeOk v s).ntx.rspStatus = s.ntx.rspStatus := rfl
@[simp] theorem writeOk_ntx_rspInfo (v : Byte) (s : State) : (writeOk v s).ntx.rspInfo = s.ntx.rspInfo := rfl
@[simp] theorem writeOk_ntx_rspValid (v : Byte) (s : State) : (writeOk v s).ntx.rspValid = s.ntx.rspValid := rfl
@[simp] theorem writeOk_ntx_busWr (v : Byte) (s : State) : (writeOk v s).ntx.busWr = none := rfl

/-! ## writeErr -/

@[simp] theorem writeErr_cfg (v : Byte) (e : BusErr) (s : State) : (writeErr v e s).cfg = s.cfg := rfl
@[simp] theorem writeErr_rcv (v : Byte) (e : BusErr) (s : State) :
    (writeErr v e s).rcv = s.rcv.observeLost s.cfg s.now := rfl
@[simp] theorem writeErr_drv (v : Byte) (e : BusErr) (s : State) : (writeErr v e s).drv = s.drv := rfl
@[simp] theorem writeErr_trace (v : Byte) (e : BusErr) (s : State) :
    (writeErr v e s).trace = s.trace ++ [.write v (.err e)] := rfl
@[simp] theorem writeErr_now (v : Byte) (e : BusErr) (s : State) : (writeErr v e s).now = s.now := rfl
@[simp] theorem writeErr_busIn (v : Byte) (e : BusErr) (s : State) : (writeErr v e s).busIn = s.busIn := rfl
@[simp] theorem writeErr_hostIn (v : Byte) (e : BusErr) (s : State) : (writeErr v e s).hostIn = s.hostIn := rfl
@[simp] theorem writeErr_rstIn (v : Byte) (e : BusErr) (s : State) : (writeErr v e s).rstIn = s.rstIn := rfl
@[simp] theorem writeErr_rstSeen (v : Byte) (e : BusErr) (s : State) : (writeErr v e s).rstSeen = s.rstSeen := rfl
@[simp] theorem writeErr_ntx_bl (v : Byte) (e : BusErr) (s : State) : (writeErr v e s).ntx.bl = s.ntx.bl := rfl
@[simp] theorem writeErr_ntx_fsm (v : Byte) (e : BusErr) (s : State) : (writeErr v e s).ntx.fsm = .idle := rfl
@[simp] theorem writeErr_ntx_todo (v : Byte) (e : BusErr) (s : State) : (writeErr v e s).ntx.todo = [] := rfl
@[simp] theorem writeErr_ntx_req (v : Byte) (e : BusErr) (s : State) : (writeErr v e s).ntx.req = s.ntx.req := rfl
@[simp] theorem writeErr_ntx_tmr (v : Byte) (e : BusErr) (s : State) : (writeErr v e s).ntx.tmr = s.ntx.tmr := rfl
@[simp] theorem writeErr_ntx_errs (v : Byte) (e : BusErr) (s : State) : (writeErr v e s).ntx.errs = true := rfl
@[simp] theorem writeErr_ntx_rspStatus (v : Byte) (e : BusErr) (s : State) :
    (writeErr v e s).ntx.rspStatus = statusBusError := rfl
@[simp] theorem writeErr_ntx_rspInfo (v : Byte) (e : BusErr) (s : State) : (writeErr v e s).ntx.rspInfo = e := rfl
@[simp] theorem writeErr_ntx_rspValid (v : Byte) (e : BusErr) (s : State) :
    (writeErr v e s).ntx.rspValid = true := rfl
@[simp] theorem writeErr_ntx_busWr (v : Byte) (e : BusErr) (s : State) : (writeErr v e s).ntx.busWr = none := rfl

/-! ## startDelay -/

@[simp] theorem startDelay_cfg (n : Nat) (s : State) : (startDelay n s).cfg = s.cfg := rfl
@[simp] theorem startDelay_rcv (n : Nat) (s : State) : (startDelay n s).rcv = s.rcv := rfl
@[simp] theorem startDelay_drv (n : Nat) (s : State) : (startDelay n s).drv = s.drv := rfl
@[simp] theorem startDelay_trace (n : Nat) (s : State) : (startDelay n s).trace = s.trace ++ [.delay n] := rfl
@[simp] theorem startDelay_now (n : Nat) (s : State) : (startDelay n s).now = s.now := rfl
@[simp] theorem startDelay_busIn (n : Nat) (s : State) : (startDelay n s).busIn = s.busIn := rfl
@[simp] theorem startDelay_hostIn (n : Nat) (s : State) : (startDelay n s).hostIn = s.hostIn := rfl
@[simp] theorem startDelay_rstIn (n : Nat) (s : State) : (startDelay n s).rstIn = s.rstIn := rfl
@[simp] theorem startDelay_rstSeen (n : Nat) (s : State) : (startDelay n s).rstSeen = s.rstSeen := rfl
@[simp] theorem startDelay_ntx_bl (n : Nat) (s : State) : (startDelay n s).ntx.bl = s.ntx.bl := rfl
@[simp] theorem startDelay_ntx_fsm (n : Nat) (s : State) : (startDelay n s).ntx.fsm = s.ntx.fsm := rfl
@[simp] theorem startDelay_ntx_todo (n : Nat) (s : State) : (startDelay n s).ntx.todo = s.ntx.todo := rfl
@[simp] theorem startDelay_ntx_req (n : Nat) (s : State) : (startDelay n s).ntx.req = s.ntx.req := rfl
@[simp] theorem startDelay_ntx_tmr (n : Nat) (s : State) : (startDelay n s).ntx.tmr = some (ticksFor n) := rfl
@[simp] theorem startDelay_ntx_errs (n : Nat) (s : State) : (startDelay n s).ntx.errs = s.ntx.errs := rfl
@[simp] theorem startDelay_ntx_rspStatus (n : Nat) (s : State) :
    (startDelay n s).ntx.rspStatus = s.ntx.rspStatus := rfl
@[simp] theorem startDelay_ntx_rspInfo (n : Nat) (s : State) : (startDelay n s).ntx.rspInfo = s.ntx.rspInfo := rfl
@[simp] theorem startDelay_ntx_rspValid (n : Nat) (s : State) : (startDelay n s).ntx.rspValid = s.ntx.rspValid := rfl
@[simp] theorem startDelay_ntx_busWr (n : Nat) (s : State) :
    (startDelay n s).ntx.busWr = s.ntx.busWr := rfl

/-! ## beginPulse -/

@[simp] theorem beginPulse_cfg (q : PulseRequest) (s : State) : (beginPulse q s).cfg = s.cfg := rfl
@[simp] theorem beginPulse_ntx (q : PulseRequest) (s : State) : (beginPulse q s).ntx = s.ntx := rfl
@[simp] theorem beginPulse_rcv (q : PulseRequest) (s : State) : (beginPulse q s).rcv = s.rcv.beginPulse s.cfg s.now q := rfl
@[simp] theorem beginPulse_drv (q : PulseRequest) (s : State) : (beginPulse q s).drv = s.drv := rfl
@[simp] theorem beginPulse_trace (q : PulseRequest) (s : State) : (beginPulse q s).trace = s.trace := rfl
@[simp] theorem beginPulse_now (q : PulseRequest) (s : State) : (beginPulse q s).now = s.now := rfl
@[simp] theorem beginPulse_busIn (q : PulseRequest) (s : State) : (beginPulse q s).busIn = s.busIn := rfl
@[simp] theorem beginPulse_hostIn (q : PulseRequest) (s : State) : (beginPulse q s).hostIn = s.hostIn := rfl
@[simp] theorem beginPulse_rstIn (q : PulseRequest) (s : State) : (beginPulse q s).rstIn = s.rstIn := rfl
@[simp] theorem beginPulse_rstSeen (q : PulseRequest) (s : State) : (beginPulse q s).rstSeen = s.rstSeen := rfl

/-! ## beginRefresh -/

@[simp] theorem beginRefresh_cfg (s : State) : (beginRefresh s).cfg = s.cfg := rfl
@[simp] theorem beginRefresh_ntx (s : State) : (beginRefresh s).ntx = s.ntx := rfl
@[simp] theorem beginRefresh_rcv (s : State) : (beginRefresh s).rcv = s.rcv.beginRefresh s.now := rfl
@[simp] theorem beginRefresh_drv (s : State) : (beginRefresh s).drv = s.drv := rfl
@[simp] theorem beginRefresh_trace (s : State) : (beginRefresh s).trace = s.trace := rfl
@[simp] theorem beginRefresh_now (s : State) : (beginRefresh s).now = s.now := rfl
@[simp] theorem beginRefresh_busIn (s : State) : (beginRefresh s).busIn = s.busIn := rfl
@[simp] theorem beginRefresh_hostIn (s : State) : (beginRefresh s).hostIn = s.hostIn := rfl
@[simp] theorem beginRefresh_rstIn (s : State) : (beginRefresh s).rstIn = s.rstIn := rfl
@[simp] theorem beginRefresh_rstSeen (s : State) : (beginRefresh s).rstSeen = s.rstSeen := rfl

/-! ## resetNtx -/

@[simp] theorem resetNtx_cfg (s : State) : (resetNtx s).cfg = s.cfg := rfl
@[simp] theorem resetNtx_ntx (s : State) : (resetNtx s).ntx = Ntx.reset := rfl
@[simp] theorem resetNtx_rcv (s : State) :
    (resetNtx s).rcv = (if s.ntx.busWr.isSome then s.rcv.observeLost s.cfg s.now else s.rcv).afterNtxReset s.now := rfl
@[simp] theorem resetNtx_drv (s : State) : (resetNtx s).drv = s.drv := rfl
@[simp] theorem resetNtx_trace (s : State) : (resetNtx s).trace = s.trace := rfl
@[simp] theorem resetNtx_now (s : State) : (resetNtx s).now = s.now := rfl
@[simp] theorem resetNtx_busIn (s : State) : (resetNtx s).busIn = s.busIn := rfl
@[simp] theorem resetNtx_hostIn (s : State) : (resetNtx s).hostIn = s.hostIn := rfl
@[simp] theorem resetNtx_rstIn (s : State) : (resetNtx s).rstIn = s.rstIn.tail := rfl
@[simp] theorem resetNtx_rstSeen (s : State) : (resetNtx s).rstSeen = true := rfl

/-! ## endDelay -/

/-- A loaded timer runs out: the time has passed and the timer is idle. -/
theorem endDelay_running {n k : Nat} {s : State} (h : s.ntx.tmr = some k) :
    endDelay n s = { s with ntx := { s.ntx with tmr := none }, now := s.now + n } := by
  simp [endDelay, h]

@[simp] theorem endDelay_ntx_tmr (n : Nat) (s : State) : (endDelay n s).ntx.tmr = none := by
  unfold endDelay; split <;> simp_all

@[simp] theorem endDelay_cfg (n : Nat) (s : State) : (endDelay n s).cfg = s.cfg := by
  unfold endDelay; split <;> rfl
@[simp] theorem endDelay_rcv (n : Nat) (s : State) : (endDelay n s).rcv = s.rcv := by
  unfold endDelay; split <;> rfl
@[simp] theorem endDelay_drv (n : Nat) (s : State) : (endDelay n s).drv = s.drv := by
  unfold endDelay; split <;> rfl
@[simp] theorem endDelay_trace (n : Nat) (s : State) : (endDelay n s).trace = s.trace := by
  unfold endDelay; split <;> rfl
@[simp] theorem endDelay_busIn (n : Nat) (s : State) : (endDelay n s).busIn = s.busIn := by
  unfold endDelay; split <;> rfl
@[simp] theorem endDelay_hostIn (n : Nat) (s : State) : (endDelay n s).hostIn = s.hostIn := by
  unfold endDelay; split <;> rfl
@[simp] theorem endDelay_rstIn (n : Nat) (s : State) : (endDelay n s).rstIn = s.rstIn := by
  unfold endDelay; split <;> rfl
@[simp] theorem endDelay_rstSeen (n : Nat) (s : State) : (endDelay n s).rstSeen = s.rstSeen := by
  unfold endDelay; split <;> rfl
@[simp] theorem endDelay_ntx_bl (n : Nat) (s : State) : (endDelay n s).ntx.bl = s.ntx.bl := by
  unfold endDelay; split <;> rfl
@[simp] theorem endDelay_ntx_fsm (n : Nat) (s : State) : (endDelay n s).ntx.fsm = s.ntx.fsm := by
  unfold endDelay; split <;> rfl
@[simp] theorem endDelay_ntx_todo (n : Nat) (s : State) : (endDelay n s).ntx.todo = s.ntx.todo := by
  unfold endDelay; split <;> rfl
@[simp] theorem endDelay_ntx_req (n : Nat) (s : State) : (endDelay n s).ntx.req = s.ntx.req := by
  unfold endDelay; split <;> rfl
@[simp] theorem endDelay_ntx_errs (n : Nat) (s : State) : (endDelay n s).ntx.errs = s.ntx.errs := by
  unfold endDelay; split <;> rfl
@[simp] theorem endDelay_ntx_rspStatus (n : Nat) (s : State) : (endDelay n s).ntx.rspStatus = s.ntx.rspStatus := by
  unfold endDelay; split <;> rfl
@[simp] theorem endDelay_ntx_rspInfo (n : Nat) (s : State) : (endDelay n s).ntx.rspInfo = s.ntx.rspInfo := by
  unfold endDelay; split <;> rfl
@[simp] theorem endDelay_ntx_rspValid (n : Nat) (s : State) : (endDelay n s).ntx.rspValid = s.ntx.rspValid := by
  unfold endDelay; split <;> rfl
@[simp] theorem endDelay_ntx_busWr (n : Nat) (s : State) : (endDelay n s).ntx.busWr = s.ntx.busWr := by
  unfold endDelay; split <;> rfl

/-! ## giveRequest -/

/-- In IDLE a request is accepted and its body runs. -/
@[simp] theorem giveRequest_idle {w : Word} {body : State → State} {s : State} (h : s.ntx.fsm = .idle) :
    giveRequest w body s = body (accept w s) := by
  simp [giveRequest, h]

/-- In BUSY a request is not taken. -/
@[simp] theorem giveRequest_busy {w : Word} {body : State → State} {s : State} (h : s.ntx.fsm = .busy) :
    giveRequest w body s = s := by
  simp [giveRequest, h]

end Sys2Proof.Machine
end

