-- ==== Sys2Proof/Laws/Run.lean ====
section
/-! SUPPORT. What `run` does, one lemma for each way a line can go, and for a whole delay and a whole pulse. -/

namespace Sys2Proof.Machine

@[simp] theorem tick_none {s : State} (h : s.rstIn = []) : tick s = s := by
  cases s; simp_all [tick]

theorem okAnswers_cons {n : Nat} {as : List BusAnswer} (h : okAnswers (n + 1) as = true) :
    ∃ a bs, as = a :: bs ∧ a.wrOk = true ∧ okAnswers n bs = true := by
  cases as with
  | nil => simp [okAnswers] at h
  | cons a bs => exact ⟨a, bs, rfl, by simpa [okAnswers] using h⟩

/-- The first of many `ok`s are `ok`. -/
theorem okAnswers_mono {m n : Nat} (hmn : m ≤ n) {as : List BusAnswer} (h : okAnswers n as = true) :
    okAnswers m as = true := by
  induction m generalizing n as with
  | zero => rfl
  | succ m ih =>
    obtain ⟨n, rfl⟩ : ∃ k, n = k + 1 := ⟨n - 1, by omega⟩
    obtain ⟨a, bs, rfl, ha, hb⟩ := okAnswers_cons h
    simp [okAnswers, ha, ih (by omega) hb]

theorem okAnswers_drop {m n : Nat} {as : List BusAnswer} (h : okAnswers (m + n) as = true) :
    okAnswers n (as.drop m) = true := by
  induction m generalizing as with
  | zero => simpa using h
  | succ m ih =>
    obtain ⟨a, bs, rfl, -, hb⟩ := okAnswers_cons (n := m + n) (by rwa [show m + n + 1 = m + 1 + n by omega])
    exact ih hb

@[simp] theorem run_nil (s : State) : run [] s = respond statusOk s := rfl

/-- A reset that is due abandons the request. -/
theorem run_reset {l : Line} {ls : List Line} {s : State} (h : s.rstIn.head? = some 0) :
    run (l :: ls) s = abandon l s := by
  obtain ⟨r, hr⟩ := List.head?_eq_some_iff.mp h
  simp [run, hr]

/-- A write that is answered `ok`, with no reset due. -/
theorem run_write_ok {v : Byte} {ls : List Line} {s : State} {a : BusAnswer} {as : List BusAnswer}
    (hr : s.rstIn = []) (hb : s.busIn = a :: as) (ha : a.wrOk = true) :
    run (.write v :: ls) s = run ls (writeOk v { s with busIn := as }) := by
  simp [run, hr, hb, busResult, ha]

/-- A write that fails ends the request. -/
theorem run_write_err {v : Byte} {ls : List Line} {s : State} {a : BusAnswer} {as : List BusAnswer}
    (hr : s.rstIn = []) (hb : s.busIn = a :: as) (ha : a.wrOk = false) :
    run (.write v :: ls) s = writeErr v a.wrErr { s with busIn := as } := by
  simp [run, hr, hb, busResult, ha]

/-- A write with no answer is waited for. -/
theorem run_write_wait {v : Byte} {ls : List Line} {s : State} (hr : s.rstIn = []) (hb : s.busIn = []) :
    run (.write v :: ls) s = awaitBus v (.write v :: ls) s := by
  simp [run, hr, hb]

theorem run_startDelay {n : Nat} {ls : List Line} {s : State} (hr : s.rstIn = []) :
    run (.startDelay n :: ls) s = run ls (startDelay n s) := by
  simp [run, hr]

theorem run_endDelay {n : Nat} {ls : List Line} {s : State} (hr : s.rstIn = []) :
    run (.endDelay n :: ls) s = run ls (endDelay n s) := by
  simp [run, hr]

/-- A whole `Delay(n)`: its event, its time, and an idle timer (R113). -/
theorem run_delayLines {n : Nat} {ls : List Line} {s : State} (hr : s.rstIn = []) :
    run (delayLines n ++ ls) s =
      run ls { s with ntx := { s.ntx with tmr := none }, trace := s.trace ++ [.delay n], now := s.now + n } := by
  simp only [delayLines, List.cons_append, List.nil_append]
  rw [run_startDelay hr, run_endDelay (by simpa using hr), endDelay_running rfl]
  rfl

/-- The state after one enable pulse with every write answered `ok` (R91). -/
def afterPulse (p : Params) (bl : Bool) (v : Byte) (s : State) : State :=
  { s with
    ntx := { s.ntx with tmr := none, busWr := none }
    rcv := s.rcv.seePulse p s.now bl v
    trace := s.trace ++ pulseEvents p bl v
    now := s.now + p.tEh + p.tPost
    busIn := s.busIn.drop (pulseWrites p) }

/-- A whole enable pulse with every write answered `ok` (R91, R93). -/
theorem run_pulseLines {p : Params} {bl : Bool} {v : Byte} {ls : List Line} {s : State} (hc : s.cfg = p)
    (hr : s.rstIn = []) (hb : okAnswers (pulseWrites p) s.busIn = true) :
    run (pulseLines p bl v ++ ls) s = run ls (afterPulse p bl v s) := by
  obtain ⟨cfg, ntx, rcv, drv, trace, now, busIn, hostIn, rstIn, rstSeen⟩ := s
  simp only at hc hr hb
  subst hc hr
  by_cases hs : cfg.settle = true
  · simp only [pulseWrites, hs, if_true] at hb
    obtain ⟨a, as, rfl, ha, hb⟩ := okAnswers_cons hb
    obtain ⟨a', as', rfl, ha', hb⟩ := okAnswers_cons hb
    obtain ⟨a'', as'', rfl, ha'', -⟩ := okAnswers_cons hb
    simp only [pulseLines, hs, if_true, List.cons_append, List.nil_append, List.append_assoc]
    rw [run_write_ok rfl rfl ha, run_write_ok rfl rfl ha', run_delayLines rfl, run_write_ok rfl rfl ha'',
      run_delayLines rfl]
    simp [afterPulse, writeOk, completeWrite, Receiver.seePulse, pulseEvents, pulseWrites, hs]
  · simp only [pulseWrites, hs] at hb
    obtain ⟨a, as, rfl, ha, hb⟩ := okAnswers_cons hb
    obtain ⟨a', as', rfl, ha', -⟩ := okAnswers_cons hb
    simp only [pulseLines, hs, List.cons_append, List.nil_append, List.append_assoc, Bool.false_eq_true, if_false]
    rw [run_write_ok rfl rfl ha, run_delayLines rfl, run_write_ok rfl rfl ha', run_delayLines rfl]
    simp [afterPulse, writeOk, completeWrite, Receiver.seePulse, pulseEvents, pulseWrites, hs]

/-- The lines of a request touch neither the parameters, nor the host, nor what the host is asked next. -/
theorem run_outside (ls : List Line) (s : State) :
    (run ls s).cfg = s.cfg ∧ (run ls s).drv = s.drv ∧ (run ls s).hostIn = s.hostIn := by
  induction ls generalizing s with
  | nil => exact ⟨rfl, rfl, rfl⟩
  | cons l ls ih =>
    unfold run
    split
    · cases l <;> exact ⟨rfl, rfl, rfl⟩
    · split
      · split
        · exact ⟨rfl, rfl, rfl⟩
        · split
          · exact ih _
          · exact ⟨rfl, rfl, rfl⟩
      · exact ih _
      · refine (ih _).imp (fun h => h.trans ?_) (fun h => h.imp (fun h => h.trans ?_) (fun h => h.trans ?_)) <;> simp

end Sys2Proof.Machine
end

