-- ==== Sys2Proof/Laws/Exec.lean ====
section
/-! SUPPORT. What `run` and `exec` can do, once for all: a request's lines, the state they start from, and the one induction
over the lines from which every property of a request follows. -/

namespace Sys2Proof.Machine

/-- The induction over a request's lines: `I` holds before each line, and every way to end from there has `Q`. -/
theorem run_elim {I : List Line → State → Prop} {Q : State → Prop}
    (done : ∀ s, I [] s → Q (respond statusOk s))
    (reset : ∀ l ls s, I (l :: ls) s → s.rstIn.head? = some 0 → Q (abandon l s))
    (wait : ∀ v ls s, I (.write v :: ls) s → s.rstIn.head? ≠ some 0 → s.busIn = [] →
      Q (awaitBus v (.write v :: ls) (tick s)))
    (ok : ∀ v ls s a as, I (.write v :: ls) s → s.rstIn.head? ≠ some 0 → s.busIn = a :: as → a.wrOk = true →
      I ls (writeOk v { tick s with busIn := as }))
    (err : ∀ v ls s a as, I (.write v :: ls) s → s.rstIn.head? ≠ some 0 → s.busIn = a :: as → a.wrOk = false →
      Q (writeErr v a.wrErr { tick s with busIn := as }))
    (start : ∀ n ls s, I (.startDelay n :: ls) s → s.rstIn.head? ≠ some 0 → I ls (startDelay n (tick s)))
    (stop : ∀ n ls s, I (.endDelay n :: ls) s → s.rstIn.head? ≠ some 0 → I ls (endDelay n (tick s))) :
    ∀ ls s, I ls s → Q (run ls s) := by
  intro ls
  induction ls with
  | nil => exact done
  | cons l ls ih =>
    intro s h
    unfold run
    split
    · exact reset l ls s h (by simp [*])
    · rename_i hr
      have hr : s.rstIn.head? ≠ some 0 := fun h0 => by
        obtain ⟨r, hr'⟩ := List.head?_eq_some_iff.mp h0
        exact hr r hr'
      split
      · rename_i v
        split
        · exact wait v ls s h hr ‹_›
        · rename_i a as hb
          rcases ha : a.wrOk with _ | _
          · simp only [busResult, ha, Bool.false_eq_true, if_false]
            exact err v ls s a as h hr hb ha
          · simp only [busResult, ha, if_true]
            exact ih _ (ok v ls s a as h hr hb ha)
      · exact ih _ (start _ ls s h hr)
      · exact ih _ (stop _ ls s h hr)

/-- The byte that SENDCMD sends of a command (R76). -/
abbrev commandByte (i : Instr) : Byte := (encodeCommand i).getD 0x00#8

/-- The lines that instruction `i` runs, with `BL` as it stands; none for a request that is ILLEGAL. -/
def requestLines (p : Params) (bl : Bool) : Instr → Option (List Line)
  | .wrnib v => if illegalOperand p v then none else some (pulseLines p bl v)
  | .sendcmd b => some (byteLines p bl b false)
  | .senddata b => some (byteLines p bl b true)
  | .setbl x => some [.write (backlightByte p x)]
  | .waitus n => some (waitLines n)
  | .illegal _ => none
  | .clearDisplay => some (byteLines p bl 0x01#8 false)
  | .returnHome => some (byteLines p bl 0x02#8 false)
  | .entryModeSet id sh => some (byteLines p bl (commandByte (.entryModeSet id sh)) false)
  | .displayControl d c b => some (byteLines p bl (commandByte (.displayControl d c b)) false)
  | .cursorShift x => some (byteLines p bl (commandByte (.cursorShift x)) false)
  | .functionSet dl n f low => some (byteLines p bl (commandByte (.functionSet dl n f low)) false)
  | .setCGRamAddr a => some (byteLines p bl (commandByte (.setCGRamAddr a)) false)
  | .setDDRamAddr a => some (byteLines p bl (commandByte (.setDDRamAddr a)) false)

/-- The state in which the lines of `i` start, once its request is accepted. -/
def prepared (i : Instr) (s : State) : State :=
  match i with
  | .wrnib v => beginPulse (nibbleRequest v s) s
  | .sendcmd b => beginPulse (.byte b false) s
  | .senddata b => beginPulse (.byte b true) s
  | .setbl x => beginRefresh { s with ntx := { s.ntx with bl := x } }
  | .waitus _ => s
  | .illegal _ => s
  | i => beginPulse (.byte (commandByte i) false) s

/-- Every instruction given to NTX in IDLE is accepted, and is ILLEGAL or runs its lines. -/
theorem exec_idle {s : State} (h : s.ntx.fsm = .idle) (i : Instr) :
    exec i s = .next (match requestLines s.cfg s.ntx.bl i with
      | none => raiseIllegal (accept (encodeRequest i) s)
      | some ls => run ls (prepared i (accept (encodeRequest i) s))) := by
  cases i with
  | wrnib v =>
    by_cases hv : illegalOperand s.cfg v = true <;> simp [exec, execWrnib, h, wrnibBody, requestLines, hv, prepared]
  | sendcmd b => simp [exec, execSendcmd, h, sendByteBody, requestLines, prepared]
  | senddata b => simp [exec, execSenddata, h, sendByteBody, requestLines, prepared]
  | setbl x => simp [exec, execSetbl, h, setblBody, requestLines, prepared]
  | waitus n => simp [exec, execWaitus, h, requestLines, prepared]
  | illegal w => simp [exec, execIllegal, h, requestLines]
  | clearDisplay => simp [exec, execClearDisplay, sendCommand, h, sendByteBody, requestLines, prepared, commandByte, encodeCommand]
  | returnHome => simp [exec, execReturnHome, sendCommand, h, sendByteBody, requestLines, prepared, commandByte, encodeCommand]
  | entryModeSet id sh => simp [exec, execEntryModeSet, sendCommand, h, sendByteBody, requestLines, prepared]
  | displayControl d c b => simp [exec, execDisplayControl, sendCommand, h, sendByteBody, requestLines, prepared]
  | cursorShift x => simp [exec, execCursorShift, sendCommand, h, sendByteBody, requestLines, prepared]
  | functionSet dl n f low => simp [exec, execFunctionSet, sendCommand, h, sendByteBody, requestLines, prepared]
  | setCGRamAddr a => simp [exec, execSetCGRamAddr, sendCommand, h, sendByteBody, requestLines, prepared]
  | setDDRamAddr a => simp [exec, execSetDDRamAddr, sendCommand, h, sendByteBody, requestLines, prepared]

/-- A last enable pulse with every write answered `ok`. -/
theorem run_lastPulse {p : Params} {bl : Bool} {v : Byte} {s : State} (hc : s.cfg = p) (hr : s.rstIn = [])
    (hb : okAnswers (pulseWrites p) s.busIn = true) :
    run (pulseLines p bl v) s = respond statusOk (afterPulse p bl v s) := by
  simpa using run_pulseLines (ls := []) hc hr hb

/-- Both pulses of a byte with every write answered `ok` (R106, R107). -/
theorem run_byteLines {p : Params} {bl : Bool} {b : Byte} {rs : Bool} {s : State} (hc : s.cfg = p)
    (hr : s.rstIn = []) (hb : okAnswers (2 * pulseWrites p) s.busIn = true) :
    run (byteLines p bl b rs) s =
      respond statusOk (afterPulse p bl (loNibble p b rs) (afterPulse p bl (hiNibble p b rs) s)) := by
  rw [byteLines, run_pulseLines hc hr (okAnswers_mono (by omega) hb)]
  exact run_lastPulse hc hr (okAnswers_drop (by simpa [two_mul] using hb))

/-- What step comes to when no reset is due: NTX looks for the bus's answer, or the host has its turn. -/
theorem step_noReset {s : State} (h : s.rstIn.head? ≠ some 0) :
    step s = match s.ntx.fsm with
      | .busy => .next (resume s)
      | .idle => runTurn (hostTurn (tick s)) := by
  unfold step
  split
  · simp_all
  · rfl

/-- What step comes to when the host is free to go on with what it does. -/
theorem step_hostsTurn {s : State} (h : s.HostsTurn) :
    step s = runTurn (match s.drv.job with
      | none => takeInput (tick s)
      | some j =>
        if j.awaiting then if s.ntx.rspValid then readResponse j.todo (tick s) else .wait (tick s)
        else continueJob j.todo (tick s)) := by
  rw [step_noReset h.2.1, h.1]
  simp only [hostTurn, tick_rstSeen, h.2.2, Bool.false_eq_true, if_false, tick_drv, tick_ntx]
  rfl

/-- What step comes to when a reset is due. -/
theorem step_reset {s : State} (h : s.rstIn.head? = some 0) : step s = .next (resetNtx s) := by
  obtain ⟨r, hr⟩ := List.head?_eq_some_iff.mp h
  simp [step, hr]

/-- A turn that leaves everything but the driver, its queue and its notice of a reset as it was in `s`. -/
def Turn.HostOnly (s : State) : Turn → Prop
  | .wait t => t = s
  | .act t => ∃ d h b, t = { s with drv := d, hostIn := h, rstSeen := b }
  | .give _ t => ∃ d h, t = { s with drv := d, hostIn := h }
  | .fault _ => True
  | .refuse _ => True

theorem startOp_hostOnly (o : DriverOp) (s : State) (h : List HostInput) :
    Turn.HostOnly s (startOp o { s with hostIn := h }) := by
  unfold startOp
  split
  · cases o
    case setCursorPosition col row =>
      simp only [setCursorPosition]
      split
      · trivial
      · split
        · exact ⟨_, _, _, rfl⟩
        · trivial
    case print text =>
      simp only [print]
      split
      · exact ⟨_, _, _, rfl⟩
      · trivial
    all_goals exact ⟨_, _, _, rfl⟩
  · trivial

theorem continueJob_hostOnly (todo : List HostLine) (s : State) : Turn.HostOnly s (continueJob todo s) := by
  rcases todo with _ | ⟨_ | _ | _, _⟩
  · exact ⟨_, _, _, rfl⟩
  · exact ⟨_, _, rfl⟩
  · exact ⟨_, _, _, rfl⟩
  · exact ⟨_, _, rfl⟩

/-- The host's turn changes nothing of NTX, the receiver, the trace or the bus: it can only give NTX a code. -/
theorem hostTurn_hostOnly (s : State) : Turn.HostOnly s (hostTurn s) := by
  unfold hostTurn
  split
  · exact ⟨_, _, _, rfl⟩
  · split
    · unfold takeInput
      split
      · rfl
      · exact ⟨_, _, rfl⟩
      · exact ⟨_, _, _, rfl⟩
      · exact startOp_hostOnly _ _ _
    · split
      · split
        · unfold readResponse
          split
          · exact continueJob_hostOnly _ _
          · split
            · trivial
            · exact ⟨_, _, _, rfl⟩
        · rfl
      · exact continueJob_hostOnly _ _

end Sys2Proof.Machine
end

