-- ==== Sys2Proof/Laws/Memory.lean ====
section
/-! SUPPORT. DDRAM: a read after a write, and that a write keeps the canonical form. -/

namespace Sys2Proof.Machine

@[simp] theorem Memory.read_nil (a : Nat) : Memory.read a [] = none := rfl

/-- A read of the address written gives the byte written. -/
@[simp] theorem Memory.read_write_same (a : Nat) (v : Byte) (m : Memory) :
    Memory.read a (Memory.write a v m) = some v := by
  induction m with
  | nil => simp [Memory.write, Memory.read]
  | cons c m ih =>
    obtain ⟨b, u⟩ := c
    by_cases h1 : a < b
    · simp [Memory.write, Memory.read, h1]
    · by_cases h2 : a = b
      · simp [Memory.write, Memory.read, h2]
      · simp [Memory.write, Memory.read, h1, h2, ih]

/-- A write leaves every other address alone. -/
@[simp] theorem Memory.read_write_other {a x : Nat} (v : Byte) (m : Memory) (h : x ≠ a) :
    Memory.read x (Memory.write a v m) = Memory.read x m := by
  induction m with
  | nil => simp [Memory.write, Memory.read, h]
  | cons c m ih =>
    obtain ⟨b, u⟩ := c
    by_cases h1 : a < b
    · simp [Memory.write, Memory.read, h1, h]
    · by_cases h2 : a = b
      · subst h2; simp [Memory.write, Memory.read, h]
      · simp [Memory.write, Memory.read, h1, h2, ih]

/-- Only addresses from `lo` on are listed, whatever lower bound is asked for instead. -/
theorem Memory.wfFrom_mono {lo lo' : Nat} (h : lo' ≤ lo) {m : Memory} (hm : Memory.wfFrom lo m = true) :
    Memory.wfFrom lo' m = true := by
  cases m with
  | nil => rfl
  | cons c m =>
    simp only [Memory.wfFrom, Bool.and_eq_true, decide_eq_true_eq] at hm ⊢
    exact ⟨⟨by omega, hm.1.2⟩, hm.2⟩

theorem Memory.write_wfFrom {lo a : Nat} (v : Byte) {m : Memory} (ha : lo ≤ a) (ha' : a < 128)
    (hm : Memory.wfFrom lo m = true) : Memory.wfFrom lo (Memory.write a v m) = true := by
  induction m generalizing lo with
  | nil => simp [Memory.write, Memory.wfFrom, ha, ha']
  | cons c m ih =>
    obtain ⟨b, u⟩ := c
    simp only [Memory.wfFrom, Bool.and_eq_true, decide_eq_true_eq] at hm
    by_cases h1 : a < b
    · simp [Memory.write, Memory.wfFrom, h1, ha, ha', hm]
    · by_cases h2 : a = b
      · subst h2; simp [Memory.write, Memory.wfFrom, hm]
      · simp only [Memory.write, h1, h2, if_false, Memory.wfFrom, Bool.and_eq_true, decide_eq_true_eq]
        exact ⟨hm.1, ih (by omega) hm.2⟩

/-- A write to a 7-bit address keeps the canonical form. -/
theorem Memory.write_wf {a : Nat} (v : Byte) {m : Memory} (ha : a < 128) (hm : Memory.wf m = true) :
    Memory.wf (Memory.write a v m) = true :=
  Memory.write_wfFrom v (Nat.zero_le a) ha hm

@[simp] theorem Memory.wf_nil : Memory.wf [] = true := rfl

/-- The memory of `State.reset` is in canonical form. -/
theorem reset_memory_wf : Memory.wf State.reset.rcv.ddram = true := rfl

end Sys2Proof.Machine
end

