-- ==== Sys2Proof/Laws/PerInstr.lean ====
section
/-! SUPPORT. Per instruction: the opcode of the request word NTX is given for it (R67), SENDCMD's for the HD44780
commands, which SENDCMD carries (R76). -/

namespace Sys2Proof

/-- `OP` of the request word of an instruction (R67); an ILLEGAL word keeps its own. -/
def Laws.RequestOpcode.opcode : Instr → Byte
  | .wrnib _ => 0x01#8
  | .sendcmd _ => 0x02#8
  | .senddata _ => 0x03#8
  | .setbl _ => 0x04#8
  | .waitus _ => 0x05#8
  | .illegal w => w.extractLsb' 24 8
  | .clearDisplay => 0x02#8
  | .returnHome => 0x02#8
  | .entryModeSet _ _ => 0x02#8
  | .displayControl _ _ _ => 0x02#8
  | .cursorShift _ => 0x02#8
  | .functionSet _ _ _ _ => 0x02#8
  | .setCGRamAddr _ => 0x02#8
  | .setDDRamAddr _ => 0x02#8

/-- The request word of the instruction has its opcode in bits 31..24. -/
def Laws.RequestOpcode.Statement (i : Instr) : Prop :=
  (encodeRequest i).extractLsb' 24 8 = Laws.RequestOpcode.opcode i

theorem Laws.RequestOpcode.wrnib (v : Byte) : Laws.RequestOpcode.Statement (.wrnib v) := encodeByteRequest_op _ _

theorem Laws.RequestOpcode.sendcmd (b : Byte) : Laws.RequestOpcode.Statement (.sendcmd b) := encodeByteRequest_op _ _

theorem Laws.RequestOpcode.senddata (b : Byte) : Laws.RequestOpcode.Statement (.senddata b) := encodeByteRequest_op _ _

theorem Laws.RequestOpcode.setbl (x : Bool) : Laws.RequestOpcode.Statement (.setbl x) := by
  cases x <;> rfl

theorem Laws.RequestOpcode.waitus (n : BitVec 24) : Laws.RequestOpcode.Statement (.waitus n) := by
  unfold Laws.RequestOpcode.Statement encodeRequest Laws.RequestOpcode.opcode
  apply BitVec.eq_of_getLsbD_eq
  intro i hi
  rw [BitVec.getLsbD_extractLsb']
  simp only [BitVec.getLsbD_append]
  simp [hi]

theorem Laws.RequestOpcode.illegal (w : Word) : Laws.RequestOpcode.Statement (.illegal w) := rfl

theorem Laws.RequestOpcode.clearDisplay : Laws.RequestOpcode.Statement .clearDisplay := encodeByteRequest_op _ _

theorem Laws.RequestOpcode.returnHome : Laws.RequestOpcode.Statement .returnHome := encodeByteRequest_op _ _

theorem Laws.RequestOpcode.entryModeSet (id s : Bool) : Laws.RequestOpcode.Statement (.entryModeSet id s) :=
  encodeByteRequest_op _ _

theorem Laws.RequestOpcode.displayControl (d c b : Bool) : Laws.RequestOpcode.Statement (.displayControl d c b) :=
  encodeByteRequest_op _ _

theorem Laws.RequestOpcode.cursorShift (x : BitVec 4) : Laws.RequestOpcode.Statement (.cursorShift x) :=
  encodeByteRequest_op _ _

theorem Laws.RequestOpcode.functionSet (dl n f : Bool) (low : BitVec 2) :
    Laws.RequestOpcode.Statement (.functionSet dl n f low) := encodeByteRequest_op _ _

theorem Laws.RequestOpcode.setCGRamAddr (a : BitVec 6) : Laws.RequestOpcode.Statement (.setCGRamAddr a) :=
  encodeByteRequest_op _ _

theorem Laws.RequestOpcode.setDDRamAddr (a : BitVec 7) : Laws.RequestOpcode.Statement (.setDDRamAddr a) :=
  encodeByteRequest_op _ _

end Sys2Proof
end

