-- ==== Sys2Proof/Laws/Receiver.lean ====
section
/-! SUPPORT. The receiver's operations: the pins after a write, what a write with no falling edge leaves alone, and the two
facts about DDRAM that every operation keeps. -/

namespace Sys2Proof.Machine

@[simp] theorem Receiver.observe_pins (p : Params) (now : Nat) (v : Byte) (r : Receiver) :
    (r.observe p now v).pins = some v := rfl

@[simp] theorem Receiver.observeLost_pins (p : Params) (now : Nat) (r : Receiver) :
    (r.observeLost p now).pins = none := rfl

/-- A write that makes no falling edge changes the pins and nothing of the controller. -/
theorem Receiver.observe_noEdge {p : Params} {now : Nat} {v : Byte} {r : Receiver} (h : r.fallingEdge p v = false) :
    r.observe p now v = { r with pins := some v, draws := r.draws + 1 } := by
  simp [Receiver.observe, h]

/-- A falling edge is a transfer of the byte written. -/
theorem Receiver.observe_edge {p : Params} {now : Nat} {v : Byte} {r : Receiver} (h : r.fallingEdge p v = true) :
    r.observe p now v = { Receiver.transfer p now v { r with draws := r.draws + 1 } with pins := some v } := by
  simp [Receiver.observe, h]

/-- A byte with E high makes no falling edge. -/
theorem Receiver.fallingEdge_high {p : Params} {v : Byte} (r : Receiver) (h : v.getLsbD p.eBit.val = true) :
    r.fallingEdge p v = false := by
  simp [Receiver.fallingEdge, h]

/-- From known pins the edge is decided by E before and after. -/
theorem Receiver.fallingEdge_known {p : Params} {v u : Byte} {r : Receiver} (h : r.pins = some u) :
    r.fallingEdge p v = (!v.getLsbD p.eBit.val && u.getLsbD p.eBit.val) := by
  simp [Receiver.fallingEdge, h]

/-- DDRAM is in canonical form, and is empty once its content is lost (R60). -/
structure Receiver.MemOk (r : Receiver) : Prop where
  wf : Memory.wf r.ddram = true
  lost : r.contentLost = true → r.ddram = []

/-- The two fields `MemOk` speaks of decide it. -/
theorem Receiver.MemOk.congr {r r' : Receiver} (h : r.MemOk) (hd : r'.ddram = r.ddram)
    (hl : r'.contentLost = r.contentLost) : r'.MemOk :=
  ⟨by rw [hd]; exact h.wf, by rw [hd, hl]; exact h.lost⟩

/-- An empty DDRAM is always in order. -/
theorem Receiver.MemOk.empty {r : Receiver} (hd : r.ddram = []) : r.MemOk :=
  ⟨by rw [hd]; rfl, fun _ => hd⟩

theorem Receiver.lose_memOk (r : Receiver) : r.lose.MemOk := .empty rfl

theorem Receiver.meetBusy_memOk (p : Params) (now : Nat) (r : Receiver) : (r.meetBusy p now).MemOk := .empty rfl

theorem Receiver.takeData_memOk {r : Receiver} (b : Byte) (h : r.MemOk) : (r.takeData b).MemOk := by
  unfold Receiver.takeData
  split
  · rename_i a _
    by_cases hl : r.contentLost = true
    · exact .empty (by simp [hl])
    · exact ⟨by simpa [hl] using Memory.write_wf b a.isLt h.wf, fun h' => absurd h' hl⟩
  · exact .empty rfl

theorem Receiver.takeCommand_memOk {r : Receiver} (p : Params) (now : Nat) (b : Byte) (h : r.MemOk) :
    (r.takeCommand p now b).MemOk := by
  unfold Receiver.takeCommand
  split
  · exact .empty rfl
  · split
    all_goals first
      | exact h
      | exact .empty rfl
      | exact h.congr rfl rfl

theorem Receiver.executeByte_memOk {r : Receiver} (p : Params) (now : Nat) (rs : Bool) (b : Byte) (h : r.MemOk) :
    (r.executeByte p now rs b).MemOk := by
  cases rs
  · exact Receiver.takeCommand_memOk p now b (h.congr rfl rfl)
  · exact Receiver.takeData_memOk b (h.congr rfl rfl)

/-- A byte is executed, and, before Initialize has been run, what it leaves is not known (R162). -/
theorem Receiver.takeByte_cases (p : Params) (now : Nat) (rs : Bool) (b : Byte) (r : Receiver) :
    r.setup = .missing ∧ r.takeByte p now rs b = (r.executeByte p now rs b).forget ∨
      r.setup ≠ .missing ∧ r.takeByte p now rs b = r.executeByte p now rs b := by
  unfold Receiver.takeByte
  split <;> simp [*]

theorem Receiver.takeByte_memOk {r : Receiver} (p : Params) (now : Nat) (rs : Bool) (b : Byte) (h : r.MemOk) :
    (r.takeByte p now rs b).MemOk := by
  rcases r.takeByte_cases p now rs b with ⟨-, e⟩ | ⟨-, e⟩ <;> rw [e]
  · exact .empty rfl
  · exact Receiver.executeByte_memOk p now rs b h

theorem Receiver.settleMode_memOk {r : Receiver} (h : r.MemOk) : r.settleMode.MemOk := by
  unfold Receiver.settleMode
  split
  · exact .empty rfl
  · exact h
  · exact h

theorem Receiver.takeNibble_memOk {r : Receiver} (p : Params) (now : Nat) (rs : Bool) (n : Nibble) (h : r.MemOk) :
    (r.takeNibble p now rs n).MemOk := by
  unfold Receiver.takeNibble
  split
  · exact Receiver.takeByte_memOk p now rs _ (h.congr rfl rfl)
  · split
    · exact h.congr rfl rfl
    · exact Receiver.takeByte_memOk p now rs _ (h.congr rfl rfl)
  · exact h

theorem Receiver.transfer_memOk {r : Receiver} (p : Params) (now : Nat) (v : Byte) (h : r.MemOk) :
    (r.transfer p now v).MemOk := by
  unfold Receiver.transfer
  split
  · exact .empty rfl
  · exact Receiver.takeNibble_memOk p now _ _ (Receiver.settleMode_memOk (h.congr rfl rfl))

/-- Every write the receiver sees keeps DDRAM in order. -/
theorem Receiver.observe_memOk {r : Receiver} (p : Params) (now : Nat) (v : Byte) (h : r.MemOk) :
    (r.observe p now v).MemOk := by
  by_cases he : r.fallingEdge p v = true
  · rw [Receiver.observe_edge he]
    exact (Receiver.transfer_memOk p now v (r := { r with draws := r.draws + 1 }) (h.congr rfl rfl)).congr rfl rfl
  · rw [Receiver.observe_noEdge (by simpa using he)]
    exact h.congr rfl rfl

theorem Receiver.observeLost_memOk (p : Params) (now : Nat) (r : Receiver) : (r.observeLost p now).MemOk := .empty rfl

/-! ## `pulseEnd` is written when a request starts, and by nothing that the controller takes -/

@[simp] theorem Receiver.forget_pulseEnd (r : Receiver) : r.forget.pulseEnd = r.pulseEnd := rfl

@[simp] theorem Receiver.meetBusy_pulseEnd (p : Params) (now : Nat) (r : Receiver) :
    (r.meetBusy p now).pulseEnd = r.pulseEnd := rfl

@[simp] theorem Receiver.setBusy_pulseEnd (now wait : Nat) (r : Receiver) :
    (r.setBusy now wait).pulseEnd = r.pulseEnd := rfl

@[simp] theorem Receiver.executeByte_pulseEnd (p : Params) (now : Nat) (rs : Bool) (b : Byte) (r : Receiver) :
    (r.executeByte p now rs b).pulseEnd = r.pulseEnd := by
  unfold Receiver.executeByte
  cases rs
  · simp only [Bool.false_eq_true, if_false, Receiver.takeCommand]
    split
    · rfl
    · split <;> rfl
  · simp only [if_true, Receiver.takeData]
    split <;> rfl

@[simp] theorem Receiver.takeByte_pulseEnd (p : Params) (now : Nat) (rs : Bool) (b : Byte) (r : Receiver) :
    (r.takeByte p now rs b).pulseEnd = r.pulseEnd := by
  rcases r.takeByte_cases p now rs b with ⟨-, e⟩ | ⟨-, e⟩ <;> simp [e]

@[simp] theorem Receiver.settleMode_pulseEnd (r : Receiver) : r.settleMode.pulseEnd = r.pulseEnd := by
  unfold Receiver.settleMode
  split <;> rfl

@[simp] theorem Receiver.takeNibble_pulseEnd (p : Params) (now : Nat) (rs : Bool) (n : Nibble) (r : Receiver) :
    (r.takeNibble p now rs n).pulseEnd = r.pulseEnd := by
  unfold Receiver.takeNibble
  split
  · simp
  · split <;> simp
  · rfl

@[simp] theorem Receiver.transfer_pulseEnd (p : Params) (now : Nat) (v : Byte) (r : Receiver) :
    (r.transfer p now v).pulseEnd = r.pulseEnd := by
  unfold Receiver.transfer
  split <;> simp

@[simp] theorem Receiver.observe_pulseEnd (p : Params) (now : Nat) (v : Byte) (r : Receiver) :
    (r.observe p now v).pulseEnd = r.pulseEnd := by
  unfold Receiver.observe
  split <;> simp

@[simp] theorem Receiver.observeLost_pulseEnd (p : Params) (now : Nat) (r : Receiver) :
    (r.observeLost p now).pulseEnd = now := rfl

@[simp] theorem Receiver.afterNtxReset_pulseEnd (now : Nat) (r : Receiver) : (r.afterNtxReset now).pulseEnd = now := rfl

@[simp] theorem Receiver.beginRefresh_pulseEnd (now : Nat) (r : Receiver) :
    (r.beginRefresh now).pulseEnd = r.pulseEnd := by
  unfold Receiver.beginRefresh
  split <;> rfl

/-! ## The start of a request -/

@[simp] theorem Receiver.note_pulseEnd (p : Params) (now : Nat) (u : Pairing) (row : List SyncNibble) (c : Setup)
    (r : Receiver) : (r.note p now u row c).pulseEnd = now + (p.tEh + p.tPost) := rfl

@[simp] theorem Receiver.note_pairing (p : Params) (now : Nat) (u : Pairing) (row : List SyncNibble) (c : Setup)
    (r : Receiver) : (r.note p now u row c).pairing = u := rfl

@[simp] theorem Receiver.note_syncRow (p : Params) (now : Nat) (u : Pairing) (row : List SyncNibble) (c : Setup)
    (r : Receiver) : (r.note p now u row c).syncRow = row := rfl

@[simp] theorem Receiver.note_setup (p : Params) (now : Nat) (u : Pairing) (row : List SyncNibble) (c : Setup)
    (r : Receiver) : (r.note p now u row c).setup = c := rfl

theorem Receiver.note_memOk {r : Receiver} (p : Params) (now : Nat) (u : Pairing) (row : List SyncNibble) (c : Setup)
    (h : r.MemOk) : (r.note p now u row c).MemOk := h.congr rfl rfl

/-- What a pulse request can find as it starts: it comes too soon; it has broken the pairing or the synchronisation, so that the
content is lost, and the mode with it unless the nibbles of a synchronisation have just been sent; or all is well. -/
theorem Receiver.beginPulse_cases (p : Params) (now : Nat) (q : PulseRequest) (r : Receiver) :
    ∃ u row c, r.beginPulse p now q = (r.meetBusy p now).note p now u row c ∧
        (now < max r.busyUntil r.quietUntil ∨ r.nextPairing p q = none ∧ r.hasty p now q = true) ∨
      max r.busyUntil r.quietUntil ≤ now ∧
        (r.nextPairing p q = none ∧ r.beginPulse p now q = r.lose.note p now u row c ∨
          r.nextPairing p q = none ∧ r.resynchronised p now q = true ∧
            r.beginPulse p now q = r.loseContent.note p now u row c ∨
          (r.nextPairing p q = some u ∨ r.synchronises p now q = true) ∧ r.beginPulse p now q = r.note p now u row c) := by
  unfold Receiver.beginPulse
  dsimp only
  split
  · exact ⟨_, _, _, .inl ⟨rfl, .inl ‹_›⟩⟩
  · have hb : max r.busyUntil r.quietUntil ≤ now := by omega
    split
    · rename_i u h
      exact ⟨u, _, _, .inr ⟨hb, .inr (.inr ⟨.inl h, rfl⟩)⟩⟩
    · rename_i h
      split
      · exact ⟨_, _, _, .inr ⟨hb, .inr (.inr ⟨.inr ‹_›, rfl⟩)⟩⟩
      · split
        · exact ⟨_, _, _, .inl ⟨rfl, .inr ⟨h, ‹_›⟩⟩⟩
        · split
          · exact ⟨_, _, _, .inr ⟨hb, .inr (.inl ⟨h, ‹_›, rfl⟩)⟩⟩
          · split <;> exact ⟨_, _, _, .inr ⟨hb, .inl ⟨h, rfl⟩⟩⟩

@[simp] theorem Receiver.beginPulse_pulseEnd (p : Params) (now : Nat) (q : PulseRequest) (r : Receiver) :
    (r.beginPulse p now q).pulseEnd = now + (p.tEh + p.tPost) := by
  obtain ⟨u, row, c, ⟨h, -⟩ | ⟨-, ⟨-, h⟩ | ⟨-, -, h⟩ | ⟨-, h⟩⟩⟩ := r.beginPulse_cases p now q <;> simp [h]

theorem Receiver.beginPulse_memOk {r : Receiver} (p : Params) (now : Nat) (q : PulseRequest) (h : r.MemOk) :
    (r.beginPulse p now q).MemOk := by
  obtain ⟨u, row, c, ⟨e, -⟩ | ⟨-, ⟨-, e⟩ | ⟨-, -, e⟩ | ⟨-, e⟩⟩⟩ := r.beginPulse_cases p now q <;> rw [e]
  · exact Receiver.note_memOk p now u row c (r.meetBusy_memOk p now)
  · exact Receiver.note_memOk p now u row c r.lose_memOk
  · exact Receiver.note_memOk p now u row c (.empty rfl)
  · exact Receiver.note_memOk p now u row c h

theorem Receiver.beginRefresh_memOk {r : Receiver} (now : Nat) (h : r.MemOk) : (r.beginRefresh now).MemOk := by
  unfold Receiver.beginRefresh
  split
  · exact r.lose_memOk
  · exact h

/-- After a reset of NTX the known content is what it was (log 14). -/
theorem Receiver.afterNtxReset_memOk {r : Receiver} (now : Nat) (h : r.MemOk) : (r.afterNtxReset now).MemOk := h.congr rfl rfl

end Sys2Proof.Machine
end

