-- ==== Sys2Proof/Laws/Pulse.lean ====
section
/-! SUPPORT. An enable pulse as the receiver sees it, and the lines of the bytes it is made of. -/

namespace Sys2Proof.Machine

/-- Bit `i` of the mask of the control line at bit `k`. -/
theorem lineMask_bit (k : Fin 4) (i : Nat) : (lineMask k).getLsbD i = decide (i = k.val) := by
  have := k.isLt
  simp only [lineMask, BitVec.getLsbD_twoPow]
  by_cases h : i = k.val
  · simp [h, show k.val < 8 by omega]
  · simp [h, Ne.symm h]

theorem backlightByte_bit (p : Params) (on : Bool) (i : Nat) :
    (backlightByte p on).getLsbD i = (on && decide (i = p.blBit.val)) := by
  cases on <;> simp [backlightByte, lineMask_bit]

theorem overlay_bit (p : Params) (bl : Bool) (v : Byte) (i : Nat) :
    (overlay p bl v).getLsbD i = (v.getLsbD i || (bl && decide (i = p.blBit.val))) := by
  simp [overlay, backlightByte_bit]

theorem raiseE_bit (p : Params) (v : Byte) (i : Nat) :
    (raiseE p v).getLsbD i = (v.getLsbD i || decide (i = p.eBit.val)) := by
  simp [raiseE, lineMask_bit]

theorem registerSelect_bit (p : Params) (rs : Bool) (i : Nat) :
    (registerSelect p rs).getLsbD i = (rs && decide (i = p.rsBit.val)) := by
  cases rs <;> simp [registerSelect, lineMask_bit]

/-- A pulse is one transfer, at its E-low write, unless E may have been high before it. -/
theorem Receiver.seePulse_transfer {p : Params} {now : Nat} {bl : Bool} {v : Byte} {r : Receiver}
    (he : (overlay p bl v).getLsbD p.eBit.val = false)
    (hp : p.settle = false ∨ r.pins.any (fun u => !u.getLsbD p.eBit.val) = true) :
    ∃ d u, r.seePulse p now bl v =
      { Receiver.transfer p (now + p.tEh) (overlay p bl v) { r with pins := u, draws := d } with
        pins := some (overlay p bl v) } := by
  have hraise : (raiseE p (overlay p bl v)).getLsbD p.eBit.val = true := by simp [raiseE_bit]
  have pulse : ∀ q : Receiver,
      (q.observe p now (raiseE p (overlay p bl v))).observe p (now + p.tEh) (overlay p bl v) =
        { Receiver.transfer p (now + p.tEh) (overlay p bl v)
            { q with pins := some (raiseE p (overlay p bl v)), draws := q.draws + 1 + 1 } with
          pins := some (overlay p bl v) } := by
    intro q
    rw [Receiver.observe_noEdge (Receiver.fallingEdge_high q hraise),
      Receiver.observe_edge (by rw [Receiver.fallingEdge_known rfl]; simp [he, hraise])]
  unfold Receiver.seePulse
  rcases hp with hs | hp
  · rw [if_neg (by simp [hs])]
    exact ⟨_, _, pulse r⟩
  · by_cases hs : p.settle = true
    · rw [if_pos hs]
      obtain ⟨u, hu, hl⟩ : ∃ u, r.pins = some u ∧ u.getLsbD p.eBit.val = false := by
        cases h : r.pins with
        | none => simp [h] at hp
        | some u => exact ⟨u, rfl, by simpa [h] using hp⟩
      have h0 : r.fallingEdge p (overlay p bl v) = false := by rw [Receiver.fallingEdge_known hu]; simp [hl]
      simp only [Receiver.observe_noEdge h0]
      exact ⟨_, _, pulse _⟩
    · rw [if_neg hs]
      exact ⟨_, _, pulse r⟩

/-- A nibble that a controller in 4-bit framing takes as a high half (R58). -/
theorem Receiver.transfer_high {p : Params} {now : Nat} {v : Byte} {r : Receiver} (hm : r.mode = .bit4)
    (hp : r.phase = .high) (hb : r.busyUntil ≤ now) :
    r.transfer p now v =
      { r with
        busyUntil := max r.busyUntil (now + p.tPost), high := dataLines v
        phase := .low } := by
  simp [Receiver.transfer, show ¬ now < r.busyUntil by omega, Receiver.settleMode, Receiver.setBusy, hm,
    Receiver.takeNibble, hp]

/-- A nibble that completes a byte in 4-bit framing (R58). -/
theorem Receiver.transfer_low {p : Params} {now : Nat} {v : Byte} {r : Receiver} (hm : r.mode = .bit4)
    (hp : r.phase = .low) (hb : r.busyUntil ≤ now) :
    r.transfer p now v =
      Receiver.takeByte p now (v.getLsbD p.rsBit.val) (r.high ++ dataLines v)
        { r with busyUntil := max r.busyUntil (now + p.tPost), phase := .high } := by
  simp [Receiver.transfer, show ¬ now < r.busyUntil by omega, Receiver.settleMode, Receiver.setBusy, hm,
    Receiver.takeNibble, hp]

end Sys2Proof.Machine
end

