-- ==== Sys2Proof/Tests/Slice0.lean ====
section
/-! SUPPORT. Tests. Expected results come from spec/95_test_vectors.md and the encodings of spec/30_encoding.md and
spec/opcode_table.json. At the end, one witness for the hypotheses of each obligation. -/

namespace Sys2Proof.Machine.Tests

/-! ## Well-formedness: each check refuses a term -/

theorem test_wellFormed_wrnib_refuses_E : WellFormed Params.default (.wrnib 0x34#8) = false := by decide
theorem test_wellFormed_wrnib_refuses_RW : WellFormed Params.default (.wrnib 0x32#8) = false := by decide
theorem test_wellFormed_illegal_refuses_wrnib : WellFormed Params.default (.illegal 0x01000030#32) = false := by decide
theorem test_wellFormed_illegal_refuses_sendcmd : WellFormed Params.default (.illegal 0x020000C5#32) = false := by decide
theorem test_wellFormed_illegal_refuses_senddata : WellFormed Params.default (.illegal 0x03000041#32) = false := by decide
theorem test_wellFormed_illegal_refuses_setbl : WellFormed Params.default (.illegal 0x04000001#32) = false := by decide
theorem test_wellFormed_illegal_refuses_waitus : WellFormed Params.default (.illegal 0x05FFFFFF#32) = false := by decide
theorem test_wellFormed_waitus_refuses_wide :
    WellFormed { Params.default with waitBits := 20 } (.waitus 0x100000#24) = false := by decide
theorem test_wellFormed_illegal_admits_reserved : WellFormed Params.default (.illegal 0x04800000#32) = true := by decide

/-! ## Decoding: every constructor, from a word written out bit by bit (opcode_table.json) -/

-- 00000001 00000000 00000000 vvvvv00v
theorem test_decode_wrnib :
    decodeTableWord 32 0b00000001_00000000_00000000_10101001 = some (.wrnib 0b10101001#8) := by decide
-- 00000010 00000000 00000000 bbbbbbbb
theorem test_decode_sendcmd :
    decodeTableWord 32 0b00000010_00000000_00000000_11000101 = some (.sendcmd 0b11000101#8) := by decide
-- 00000011 00000000 00000000 bbbbbbbb
theorem test_decode_senddata :
    decodeTableWord 32 0b00000011_00000000_00000000_01000001 = some (.senddata 0b01000001#8) := by decide
-- 00000100 00000000 00000000 0000000x
theorem test_decode_setbl :
    decodeTableWord 32 0b00000100_00000000_00000000_00000001 = some (.setbl true) := by decide
-- 00000101 nnnnnnnn nnnnnnnn nnnnnnnn
theorem test_decode_waitus :
    decodeTableWord 32 0b00000101_10000000_01000001_00000011 = some (.waitus 0b10000000_01000001_00000011#24) := by decide
-- 00000001
theorem test_decode_clearDisplay : decodeTableWord 8 0b00000001 = some .clearDisplay := by decide
-- 00000010
theorem test_decode_returnHome : decodeTableWord 8 0b00000010 = some .returnHome := by decide
-- 000001is
theorem test_decode_entryModeSet : decodeTableWord 8 0b00000110 = some (.entryModeSet true false) := by decide
-- 00001dcb
theorem test_decode_displayControl : decodeTableWord 8 0b00001101 = some (.displayControl true false true) := by decide
-- 0001xxxx
theorem test_decode_cursorShift : decodeTableWord 8 0b00011010 = some (.cursorShift 0b1010#4) := by decide
-- 001lnfxx
theorem test_decode_functionSet : decodeTableWord 8 0b00101001 = some (.functionSet false true false 0b01#2) := by decide
-- 01aaaaaa
theorem test_decode_setCGRamAddr : decodeTableWord 8 0b01100101 = some (.setCGRamAddr 0b100101#6) := by decide
-- 1aaaaaaa
theorem test_decode_setDDRamAddr : decodeTableWord 8 0b11000101 = some (.setDDRamAddr 0b1000101#7) := by decide
/-- V-DEC: the ILLEGAL rows. -/
theorem test_decode_illegal : ∀ w ∈ [0x00000000, 0x01000032, 0x01000034, 0x01010030, 0x81000030, 0x02FF00C5, 0x03000141,
    0x04000003, 0x04800000, 0x06000000, 0x85000000, 0xFF000000],
    decodeTableWord 32 w = some (.illegal (BitVec.ofNat 32 w)) := by decide
/-- R8, R71: with `P_WAIT_BITS = 20`, ARG bits 23 to 20 must be zero (D4). -/
theorem test_decode_waitBits :
    decodeRequest { Params.default with waitBits := 20 } 0x050F4240#32 = .waitus 1000000#24 ∧
    decodeRequest { Params.default with waitBits := 20 } 0x05100000#32 = .illegal 0x05100000#32 := by decide
/-- R76: no command has byte 0x00 or 0x03. -/
theorem test_decode_noRow : decodeTableWord 8 0x00 = none ∧ decodeTableWord 8 0x03 = none := by decide
/-- R81 (CURSORAT): row 1, column 5 is the request word 0x020000C5. -/
theorem test_encode_cursor : encodeRequest (.setDDRamAddr 0x45#7) = 0x020000C5#32 := by decide

/-- R81: `SETDDRAM 0x45` and `WAITMS 1000`. -/
theorem test_assemble : assemble Params.default (.setddram 0x45) = some [.sendcmd 0xC5#8] ∧
    assemble Params.default (.waitms 1000) = some [.waitus 1000000#24] ∧
    assemble Params.default (.dispctl true true false) = some [.sendcmd 0x0E#8] := by decide
/-- R80: operands that do not fit, or that set a must-be-zero bit, are assembly errors. -/
theorem test_assemble_errors : assemble Params.default (.wrnib 0x34) = none ∧ assemble Params.default (.sendcmd 256) = none ∧
    assemble Params.default (.setbl 2) = none ∧ assemble Params.default (.waitus 16777216) = none ∧
    assemble Params.default (.waitms 16778) = none ∧ assemble Params.default (.putc 0x80) = none := by decide

/-! ## One request, from IDLE -/

/-- `n` answers `ok`. -/
def oks (n : Nat) : List BusAnswer := List.replicate n { wrOk := true, wrErr := BusErr.first }

/-- An answer `err(e)`. -/
def bad (e : BusErr) : BusAnswer := { wrOk := false, wrErr := e }

/-- NTX IDLE after reset, with `BL` and the bus's answers as given. -/
def ready (bl : Bool) (as : List BusAnswer) : State :=
  { State.reset with ntx := { Ntx.reset with bl := bl }, busIn := as }

/-- The same with the settle write of R93. -/
def readySettle (as : List BusAnswer) : State :=
  { ready true as with cfg := { Params.default with settle := true } }

/-- The state a request led to. -/
def after (o : Host.Outcome State Fault Refusal) : State :=
  match o with
  | .next t => t
  | .fault _ => State.reset
  | .refused _ => State.reset

/-- V-WRNIB 0xF9, BL = 1. -/
theorem test_wrnib : (after (exec (.wrnib 0xF9#8) (ready true (oks 2)))).trace =
    [.write 0xFD#8 .ok, .delay 1, .write 0xF9#8 .ok, .delay 50] := by decide
/-- V-WRNIB 0x08, BL = 0: lit for this pulse only, `BL` stays 0. -/
theorem test_wrnib_backlight : (after (exec (.wrnib 0x08#8) (ready false (oks 2)))).trace =
    [.write 0x0C#8 .ok, .delay 1, .write 0x08#8 .ok, .delay 50] ∧
    (after (exec (.wrnib 0x08#8) (ready false (oks 2)))).ntx.bl = false := by decide
/-- V-SET WRNIB 0x30. -/
theorem test_settle : (after (exec (.wrnib 0x30#8) (readySettle (oks 3)))).trace =
    [.write 0x38#8 .ok, .write 0x3C#8 .ok, .delay 1, .write 0x38#8 .ok, .delay 50] := by decide
/-- V-CMD 0x7E, BL = 1. -/
theorem test_sendcmd : (after (exec (.sendcmd 0x7E#8) (ready true (oks 4)))).trace =
    [.write 0x7C#8 .ok, .delay 1, .write 0x78#8 .ok, .delay 50, .write 0xEC#8 .ok, .delay 1, .write 0xE8#8 .ok,
      .delay 50] := by decide
/-- V-ERR SENDCMD 0xC5, k = 3. -/
theorem test_sendcmd_error : (after (exec (.sendcmd 0xC5#8) (ready true (oks 2 ++ [bad .first])))).trace =
    [.write 0xCC#8 .ok, .delay 1, .write 0xC8#8 .ok, .delay 50, .write 0x5C#8 (.err .first)] ∧
    (after (exec (.sendcmd 0xC5#8) (ready true (oks 2 ++ [bad .first])))).ntx.rspStatus = 1#2 ∧
    (after (exec (.sendcmd 0xC5#8) (ready true (oks 2 ++ [bad .first])))).ntx.errs = true := by decide
/-- V-DAT 0x0F, BL = 1. -/
theorem test_senddata : (after (exec (.senddata 0x0F#8) (ready true (oks 4)))).trace =
    [.write 0x0D#8 .ok, .delay 1, .write 0x09#8 .ok, .delay 50, .write 0xFD#8 .ok, .delay 1, .write 0xF9#8 .ok,
      .delay 50] := by decide
/-- V-SETBL: the row `X = 1`, `BL = 0`. -/
theorem test_setbl : (after (exec (.setbl true) (ready false (oks 1)))).trace = [.write 0x08#8 .ok] ∧
    (after (exec (.setbl true) (ready false (oks 1)))).ntx.bl = true := by decide
/-- V-ERR SETBL 0: the new value is kept, and the error value passed on, whatever it is. -/
theorem test_setbl_error (e : BusErr) :
    (after (exec (.setbl false) (ready true [bad e]))).trace = [.write 0x00#8 (.err e)] ∧
    (after (exec (.setbl false) (ready true [bad e]))).ntx.bl = false ∧
    (after (exec (.setbl false) (ready true [bad e]))).ntx.rspInfo = e ∧
    (after (exec (.setbl false) (ready true [bad e]))).ntx.errs = true := ⟨rfl, rfl, rfl, rfl⟩
/-- V-WAIT 16777215 and 0. -/
theorem test_waitus : (after (exec (.waitus 0xFFFFFF#24) (ready true []))).trace = [.delay 16777215] ∧
    (after (exec (.waitus 0#24) (ready true []))).trace = [] := by decide
/-- V-DEC 0x06000000: status 2, no trace. -/
theorem test_illegal : (after (exec (.illegal 0x06000000#32) (ready true []))).trace = [] ∧
    (after (exec (.illegal 0x06000000#32) (ready true []))).ntx.rspStatus = 2#2 := by decide
/-- E2: ClearDisplay's byte. -/
theorem test_clearDisplay : (after (exec .clearDisplay (ready true (oks 4)))).trace =
    [.write 0x0C#8 .ok, .delay 1, .write 0x08#8 .ok, .delay 50, .write 0x1C#8 .ok, .delay 1, .write 0x18#8 .ok,
      .delay 50] := by decide
/-- P1, request 3: ReturnHome's byte. -/
theorem test_returnHome : (after (exec .returnHome (ready true (oks 4)))).trace =
    [.write 0x0C#8 .ok, .delay 1, .write 0x08#8 .ok, .delay 50, .write 0x2C#8 .ok, .delay 1, .write 0x28#8 .ok,
      .delay 50] := by decide
/-- P2, request 13: EntryModeSet, left to right. -/
theorem test_entryModeSet : (after (exec (.entryModeSet true false) (ready true (oks 4)))).trace =
    [.write 0x0C#8 .ok, .delay 1, .write 0x08#8 .ok, .delay 50, .write 0x6C#8 .ok, .delay 1, .write 0x68#8 .ok,
      .delay 50] := by decide
/-- V-HOST-1: dc = 0x0D, BL = 0. -/
theorem test_displayControl : (after (exec (.displayControl true false true) (ready false (oks 4)))).trace =
    [.write 0x04#8 .ok, .delay 1, .write 0x00#8 .ok, .delay 50, .write 0xD4#8 .ok, .delay 1, .write 0xD0#8 .ok,
      .delay 50] := by decide
/-- R76, R106: CursorShift 0x1A, BL = 0. -/
theorem test_cursorShift : (after (exec (.cursorShift 0xA#4) (ready false (oks 4)))).trace =
    [.write 0x14#8 .ok, .delay 1, .write 0x10#8 .ok, .delay 50, .write 0xA4#8 .ok, .delay 1, .write 0xA0#8 .ok,
      .delay 50] := by decide
/-- P2, request 9: FunctionSet 0x28. -/
theorem test_functionSet : (after (exec (.functionSet false true false 0#2) (ready true (oks 4)))).trace =
    [.write 0x2C#8 .ok, .delay 1, .write 0x28#8 .ok, .delay 50, .write 0x8C#8 .ok, .delay 1, .write 0x88#8 .ok,
      .delay 50] := by decide
/-- R76, R106: SetCGRamAddr 0x48, BL = 0. -/
theorem test_setCGRamAddr : (after (exec (.setCGRamAddr 0x08#6) (ready false (oks 4)))).trace =
    [.write 0x44#8 .ok, .delay 1, .write 0x40#8 .ok, .delay 50, .write 0x84#8 .ok, .delay 1, .write 0x80#8 .ok,
      .delay 50] := by decide
/-- E3: SetDDRamAddr 0x45, BL = 0. -/
theorem test_setDDRamAddr : (after (exec (.setDDRamAddr 0x45#7) (ready false (oks 4)))).trace =
    [.write 0xC4#8 .ok, .delay 1, .write 0xC0#8 .ok, .delay 50, .write 0x54#8 .ok, .delay 1, .write 0x50#8 .ok,
      .delay 50] := by decide
/-- U11: a write that is not answered keeps NTX BUSY, with no event. -/
theorem test_unanswered : (after (exec (.sendcmd 0xC5#8) (ready true []))).ntx.fsm = .busy ∧
    (after (exec (.sendcmd 0xC5#8) (ready true []))).ntx.busWr = some 0xCC#8 ∧
    (after (exec (.sendcmd 0xC5#8) (ready true []))).trace = [] := by decide
/-- R16, R64: the byte of a write is not kept beyond its handshake, whether it was answered `ok` or not. -/
theorem test_nothing_persists : (after (exec (.setbl true) (ready true (oks 1)))).ntx.busWr = none ∧
    (after (exec (.setbl true) (ready true [bad .first]))).ntx.busWr = none := by decide
/-- The word placed by `withFetchWord` is what the next step runs (V-DEC 0x01000030). -/
theorem test_withFetchWord : (after (step (State.reset.withFetchWord 32 0x01000030))).trace =
    [.write 0x3C#8 .ok, .delay 1, .write 0x38#8 .ok, .delay 50] := by decide
/-- R106: command byte 0x00, of no row of R76, goes to SENDCMD like any other. -/
theorem test_noRow_isSent : (after (step (State.reset.withFetchWord 8 0x00))).trace =
    [.write 0x0C#8 .ok, .delay 1, .write 0x08#8 .ok, .delay 50, .write 0x0C#8 .ok, .delay 1, .write 0x08#8 .ok,
      .delay 50] := by decide
/-- R157, R158: one reset abandons the request at its first line, and the next comes when it is due. -/
theorem test_reset_twice :
    (after (exec (.setbl false) { ready true (oks 1) with rstIn := [0, 2] })).trace = [] ∧
    (after (exec (.setbl false) { ready true (oks 1) with rstIn := [0, 2] })).ntx.bl = true ∧
    (after (exec (.setbl false) { ready true (oks 1) with rstIn := [0, 2] })).rstIn = [2] := by decide
/-- The receiver in 8-bit framing, within a synchronisation by raw requests whose last nibble was over at 2000000 µs. -/
def inRow (row : List Bool) : Receiver :=
  { Receiver.reset with
    mode := .bit8, busyUntil := 0, pulseEnd := 2000000, pairing := .syncing false
    syncRow := row.map fun x => { first := x, waited := true } }
/-- R166: 4500 µs before the second and the third `WRNIB 0x30`, 150 µs before the `WRNIB 0x20`. -/
theorem test_sync_waits :
    (Receiver.beginPulse Params.default 2004499 (.nibble 0x30#8 false) (inRow [true])).contentLost = true ∧
    (Receiver.beginPulse Params.default 2004500 (.nibble 0x30#8 false) (inRow [true])).contentLost = false ∧
    (Receiver.beginPulse Params.default 2000149 (.nibble 0x20#8 false) (inRow [false, false, true])).contentLost = true ∧
    (Receiver.beginPulse Params.default 2000150 (.nibble 0x20#8 false) (inRow [false, false, true])).contentLost = false := by
  decide
/-- R172: the waits have no upper bound: 1000 ms after the first and the second nibble are no breach. R121: two nibbles are too
few. -/
theorem test_sync_row :
    (Receiver.beginPulse Params.default 3000000 (.nibble 0x30#8 false) (inRow [true])).contentLost = false ∧
    (Receiver.beginPulse Params.default 3000000 (.nibble 0x30#8 false) (inRow [false, true])).contentLost = false ∧
    (Receiver.beginPulse Params.default 3000000 (.nibble 0x20#8 false) (inRow [false, true])).contentLost = true ∧
    (Receiver.beginPulse Params.default 3000000 (.byte 0x28#8 false) (inRow [false, true])).contentLost = true := by decide
/-- V-HOST-2: column 5 of row 1 is admitted, column 44 of row 3 refused, row 4 an index failure. -/
theorem test_cursor_domain :
    (∃ t, setCursorPosition 5 1 State.reset = .act t) ∧
    setCursorPosition 44 3 State.reset = .refuse (.columnOutsideDomain 44 3) ∧
    setCursorPosition 0 4 State.reset = .fault (.rowIndex 4) := ⟨⟨_, rfl⟩, rfl, rfl⟩

/-- The controller after P2: BIT4, HIGH, E low, left-to-right, with a DDRAM address. -/
def inStep : State :=
  { ready true (oks 4) with
    rcv := { Receiver.reset with
      pins := some 0x28#8, mode := .bit4, pairing := .between, setup := .complete, addr := some 0x45#7
      entry := some { leftToRight := true, shift := false } }
    now := 1000000 }

/-- P3: 'A' lands at DDRAM 0x45, and the address moves on to 0x46 (G9). -/
theorem test_senddata_lands : Memory.read 0x45 (after (exec (.senddata 0x41#8) inStep)).rcv.ddram = some 0x41#8 ∧
    (after (exec (.senddata 0x41#8) inStep)).rcv.addr = some 0x46#7 := by decide
/-- P3: SetDDRamAddr 0x45 is executed as an instruction. -/
theorem test_setDDRamAddr_executed :
    (after (exec (.setDDRamAddr 0x45#7) inStep)).rcv.executed = [⟨false, 0xC5#8⟩] := by decide

/-- The controller in step after `WRNIB 0x80`, which was over at 1000000 µs. -/
def halfByte : Receiver := { inStep.rcv with phase := .low, high := 8#4, pulseEnd := 1000000, pairing := .half false }
/-- R165, R169, R172: command byte 0x83 as the pair WRNIB 0x80, WRNIB 0x30 is aligned, needs no wait of R166, and may take any time;
with another RS, or as Initialize's own first nibble, the second is misaligned. -/
theorem test_wrnib_pair :
    (Receiver.beginPulse Params.default 1000000 (.nibble 0x30#8 false) halfByte).contentLost = false ∧
    (Receiver.beginPulse Params.default 9000000 (.nibble 0x30#8 false) halfByte).contentLost = false ∧
    (Receiver.beginPulse Params.default 1000000 (.nibble 0x31#8 false) halfByte).contentLost = true ∧
    (Receiver.beginPulse Params.default 9000000 (.nibble 0x30#8 true) halfByte).contentLost = true := by decide
/-- R169: a SENDCMD that finds half a byte is misaligned, one to an UNKNOWN controller may be, and one to a controller in 8-bit
framing is (R50, U16). -/
theorem test_sendcmd_misaligned :
    (Receiver.beginPulse Params.default 1000000 (.byte 0x28#8 false) halfByte).mode = .unknown ∧
    (Receiver.beginPulse Params.default 1000000 (.byte 0x28#8 false) Receiver.reset).contentLost = true ∧
    (Receiver.beginPulse Params.default 1000000 (.byte 0x28#8 false) { inStep.rcv with mode := .bit8 }).contentLost = true ∧
    (Receiver.beginPulse Params.default 1000000 (.nibble 0x30#8 false) Receiver.reset).contentLost = false := by decide
/-- R162: the 1000 ms wait, the synchronisation and the whole configuration, or SENDCMD and SENDDATA are not to be relied on. -/
theorem test_initialize_in_full :
    (Receiver.beginPulse Params.default 2000150 (.nibble 0x20#8 false) (inRow [false, false, true])).setup =
      .configuring [0x28#8, 0x0C#8, 0x01#8, 0x06#8, 0x02#8] ∧
    (Receiver.beginPulse Params.default 2000150 (.nibble 0x20#8 false)
      { inRow [] with syncRow := [⟨false, true⟩, ⟨false, true⟩, ⟨true, false⟩] }).setup = .missing ∧
    (Receiver.beginPulse Params.default 1000000 (.byte 0x02#8 false)
      { inStep.rcv with setup := .configuring [0x02#8] }).setup = .complete ∧
    (Receiver.beginPulse Params.default 1000000 (.byte 0x02#8 true)
      { inStep.rcv with setup := .configuring [0x02#8] }).setup = .missing := by decide
/-- R162: the same SENDDATA that lands in a controller in step leaves nothing known before Initialize. -/
theorem test_not_relied_on :
    (after (exec (.senddata 0x41#8) { inStep with rcv := { inStep.rcv with setup := .missing } })).rcv.ddram = [] ∧
    (after (exec (.senddata 0x41#8) { inStep with rcv := { inStep.rcv with setup := .missing } })).rcv.entry = none := by decide
/-- R164: a SETBL 1999 µs after Clear comes too soon, one 2000 µs after it does not. -/
theorem test_setbl_after_clear :
    (after (exec (.setbl true)
      { inStep with rcv := { inStep.rcv with quietUntil := 1000001 } })).rcv.contentLost = true ∧
    (after (exec (.setbl true)
      { inStep with rcv := { inStep.rcv with quietUntil := 1000000 } })).rcv.contentLost = false := by decide
/-- R162: after a reset, the host whose flag is false has `SETBL 0` to issue. -/
theorem test_host_realigns :
    (after (step { ready true [] with rstSeen := true, drv := { Driver.reset with backlight := false } })).drv.job =
      some { todo := [.issue 0x04000000#32], awaiting := false } := by decide

/-! ## Witnesses: states and operands that meet the hypotheses of each obligation -/

/-- NTX waits for the answer to the first write of WRNIB 0x30. -/
def hung : State :=
  { ready true [] with
    ntx := { Ntx.reset with
      fsm := .busy, todo := [.write 0x3C#8, .startDelay 1, .endDelay 1, .write 0x38#8, .startDelay 50, .endDelay 50]
      busWr := some 0x3C#8 } }

/-- A Ready driver that is asked to run `o`, with `n` answers `ok` to come. -/
def asked (o : DriverOp) (n : Nat) : State :=
  { ready true (oks n) with drv := { Driver.reset with life := .ready }, hostIn := [.op o] }

theorem witness_ResetTakesEffect : ∀ x : Bool, ∃ s : State, s.rstIn.head? = some 0 ∧ s.rstIn = [0] ∧ s.hostIn = [] ∧
    s.drv.job = none ∧ s.drv.backlight = x ∧ okAnswers 1 s.busIn = true :=
  fun x => ⟨{ ready true (oks 1) with rstIn := [0], drv := { Driver.reset with backlight := x } }, rfl, rfl, rfl, rfl, rfl, rfl⟩

/-- At the first line of a SETBL, and at the fourth of a SENDCMD. -/
theorem witness_ResetAbandonsAnyRequest : (∃ (i : Instr) (s t u : State), s.ntx.fsm = .idle ∧ exec i s = .next t ∧
      t.rstIn.length < s.rstIn.length ∧ exec i { s with rstIn := [] } = .next u ∧ i = .setbl false) ∧
    ∃ (i : Instr) (s t u : State), s.ntx.fsm = .idle ∧ exec i s = .next t ∧ t.rstIn.length < s.rstIn.length ∧
      exec i { s with rstIn := [] } = .next u ∧ i = .sendcmd 0xC5#8 :=
  ⟨⟨.setbl false, { ready true (oks 1) with rstIn := [0] }, _, _, rfl, rfl, by decide, rfl, rfl⟩,
    ⟨.sendcmd 0xC5#8, { ready true (oks 4) with rstIn := [3, 9] }, _, _, rfl, rfl, by decide, rfl, rfl⟩⟩

theorem test_controlClear : WellFormed.controlClear Params.default 0x30#8 = true := by decide

theorem witness_ResetInsidePulse : ∀ k ∈ [0, 5], ∃ (s : State) (v : Byte) (later : List Nat), s.ntx.fsm = .idle ∧
    s.rstIn = k :: later ∧ k < 6 ∧ s.cfg.settle = false ∧ WellFormed.controlClear s.cfg v = true ∧
    okAnswers 2 s.busIn = true := by
  intro k hk
  refine ⟨{ ready true (oks 2) with rstIn := [k, 1] }, 0x30#8, [1], rfl, rfl, ?_, rfl, test_controlClear, rfl⟩
  simp at hk; omega

theorem witness_DecodeEncode : WellFormed Params.default (.wrnib 0xF9#8) = true ∧
    WellFormed Params.default (.illegal 0xFF000000#32) = true ∧ WellFormed Params.default .clearDisplay = true := by decide

theorem witness_EncodeDecode : decode Params.default (.request 0x04000001#32) = .instr (.setbl true) ∧
    decode Params.default (.request 0x04000003#32) = .instr (.illegal 0x04000003#32) ∧
    decode Params.default (.command 0xFF#8) = .instr (.setDDRamAddr 0x7F#7) := by decide

theorem witness_EveryWordDecodesByItsRow :
    decodeRequest Params.default 0x010000F9#32 = .wrnib 0xF9#8 ∧ decodeRequest Params.default 0x020000FF#32 = .sendcmd 0xFF#8 ∧
    decodeRequest Params.default 0x03000000#32 = .senddata 0x00#8 ∧ decodeRequest Params.default 0x04000001#32 = .setbl true ∧
    decodeRequest Params.default 0x05FFFFFF#32 = .waitus 0xFFFFFF#24 ∧
    decodeRequest Params.default 0x06000000#32 = .illegal 0x06000000#32 := by decide

theorem witness_CommandBytesByMask : decodeCommand 0x01#8 = .instr .clearDisplay ∧ decodeCommand 0x02#8 = .instr .returnHome ∧
    decodeCommand 0x07#8 = .instr (.entryModeSet true true) ∧ decodeCommand 0x0F#8 = .instr (.displayControl true true true) ∧
    decodeCommand 0x1F#8 = .instr (.cursorShift 0xF#4) ∧ decodeCommand 0x3F#8 = .instr (.functionSet true true true 3#2) ∧
    decodeCommand 0x7F#8 = .instr (.setCGRamAddr 0x3F#6) ∧ decodeCommand 0xFF#8 = .instr (.setDDRamAddr 0x7F#7) ∧
    decodeCommand 0x03#8 = .noRow 0x03#8 := by decide

theorem witness_AssemblerEmitsLegalRequests : Params.default.Wf ∧ assemble Params.default .sync8 = some [.wrnib 0x30#8] ∧
    assemble Params.default .clear = some [.sendcmd 0x01#8, .waitus 2000#24] ∧
    assemble Params.default (.setddram 0x7F) = some [.sendcmd 0xFF#8] ∧ assemble Params.default (.setddram 0x80) = none ∧
    assemble Params.default (.putc 0x7F) = some [.senddata 0x7F#8] ∧
    assemble Params.default (.waitms 16777) = some [.waitus 16777000#24] := by decide

theorem witness_StepRunsDecodedInstruction : ∀ x ∈ [(Code.request 0x01000030#32, Decoded.instr (.wrnib 0x30#8)),
    (.command 0x00#8, .noRow 0x00#8)], ∃ (s : State) (rest : List HostInput), s.HostsTurn ∧ s.drv.job = none ∧
      s.hostIn = .give x.1 :: rest ∧ decode s.cfg x.1 = x.2 := by
  intro x hx
  refine ⟨{ ready true (oks 2) with hostIn := [.give x.1] }, [], ⟨rfl, nofun, rfl⟩, rfl, rfl, ?_⟩
  simp at hx
  rcases hx with rfl | rfl <;> decide

theorem witness_DriverIssuesRequest : ∀ (awaiting : Bool), ∀ l ∈ clearLines ++ [HostLine.sendDisplayControl], ∃ (s : State)
    (j : Job), s.HostsTurn ∧ s.drv.job = some j ∧ (j.awaiting = false ∨ s.ntx.rspValid = true ∧ s.ntx.rspStatus = 0#2) ∧
      j.awaiting = awaiting ∧ j.todo = l :: [] :=
  fun x l _ => ⟨{ ready true (oks 4) with
      ntx := { Ntx.reset with rspValid := true }
      drv := { Driver.reset with job := some { todo := [l], awaiting := x } } },
    { todo := [l], awaiting := x }, ⟨rfl, nofun, rfl⟩, rfl, .inr ⟨rfl, rfl⟩, rfl, rfl⟩

/-- Each kind of stop, and, at the boundaries, uses of the driver that are none. -/
theorem witness_OnlyTheHostStopsTheMachine :
    Goes (step { asked .clear 4 with drv := Driver.reset }) = false ∧ Goes (step (asked .clear 4)) = true ∧
    Goes (step (asked (.setCursorPosition 0 4) 4)) = false ∧ Goes (step (asked (.setCursorPosition (-1) 0) 4)) = false ∧
    Goes (step (asked (.setCursorPosition 44 3) 4)) = false ∧ Goes (step (asked (.setCursorPosition 43 3) 4)) = true ∧
    Goes (step (asked (.print [0x80]) 4)) = false ∧ Goes (step (asked (.print [0x7F]) 4)) = true ∧
    Goes (step { ready true [] with
      ntx := { Ntx.reset with rspValid := true, rspStatus := 3#2 }
      drv := { Driver.reset with job := some { todo := [], awaiting := true } } }) = false := by decide

theorem witness_BusyTakesNothing : hung.ntx.fsm = .busy := rfl

theorem witness_WrnibPulse :
    ((ready true (oks 2)).Free ∧ WellFormed.controlClear (ready true (oks 2)).cfg 0xF9#8 = true ∧
      okAnswers (pulseWrites (ready true (oks 2)).cfg) (ready true (oks 2)).busIn = true) ∧
    ((readySettle (oks 3)).Free ∧ WellFormed.controlClear (readySettle (oks 3)).cfg 0x00#8 = true ∧
      okAnswers (pulseWrites (readySettle (oks 3)).cfg) (readySettle (oks 3)).busIn = true) := by decide

theorem witness_WrnibIllegalOperand : (ready true []).Free ∧ (0x04#8).getLsbD (ready true []).cfg.eBit.val = true ∧
    (0x02#8).getLsbD (ready true []).cfg.rwBit.val = true := by decide

theorem witness_WrnibBusError : ∀ n ∈ [0, 1], ∃ (s : State) (oks rest : List BusAnswer) (e : BusErr), s.Free ∧
    s.cfg.settle = false ∧ WellFormed.controlClear s.cfg 0x30#8 = true ∧
    s.busIn = oks ++ { wrOk := false, wrErr := e } :: rest ∧ oks.all (·.wrOk) = true ∧ oks.length = n ∧
    n < pulseWrites s.cfg := by
  intro n hn
  refine ⟨ready true (oks n ++ [bad .first]), oks n, [], .first, ⟨rfl, rfl⟩, rfl, test_controlClear, rfl, ?_, ?_, ?_⟩
  · simp [oks]
  · simp [oks]
  · have : pulseWrites (ready true (oks n ++ [bad .first])).cfg = 2 := rfl
    simp at hn; omega

theorem witness_WrnibBusError_settle : ∀ n ∈ [0, 1, 2], ∃ (s : State) (oks rest : List BusAnswer) (e : BusErr), s.Free ∧
    s.cfg.settle = true ∧ WellFormed.controlClear s.cfg 0x30#8 = true ∧
    s.busIn = oks ++ { wrOk := false, wrErr := e } :: rest ∧ oks.all (·.wrOk) = true ∧ oks.length = n ∧
    n < pulseWrites s.cfg := by
  intro n hn
  refine ⟨readySettle (oks n ++ [bad .first]), oks n, [], .first, ⟨rfl, rfl⟩, rfl, test_controlClear, rfl, ?_, ?_, ?_⟩
  · simp [oks]
  · simp [oks]
  · have : pulseWrites (readySettle (oks n ++ [bad .first])).cfg = 3 := rfl
    simp at hn; omega

/-- Also for NibblePairIsByte and CommandsAreCarriedBySendcmd. -/
theorem witness_ByteRequestsSendBothNibbles :
    ((ready true (oks 4)).Free ∧ (ready true (oks 4)).cfg.Wf ∧
      okAnswers (2 * pulseWrites (ready true (oks 4)).cfg) (ready true (oks 4)).busIn = true) ∧
    ((readySettle (oks 6)).Free ∧ (readySettle (oks 6)).cfg.Wf ∧
      okAnswers (2 * pulseWrites (readySettle (oks 6)).cfg) (readySettle (oks 6)).busIn = true) := by decide

theorem witness_ByteRequestsEndAtFailingWrite : ∀ n ∈ [0, 3], ∃ (s : State) (oks rest : List BusAnswer) (e : BusErr),
    s.Free ∧ s.busIn = oks ++ { wrOk := false, wrErr := e } :: rest ∧ oks.all (·.wrOk) = true ∧
    oks.length = n ∧ n < 2 * pulseWrites s.cfg ∧ s.cfg.settle = false := by
  intro n hn
  refine ⟨ready true (oks n ++ [bad .first]), oks n, [], .first, ⟨rfl, rfl⟩, rfl, by simp [oks], by simp [oks], ?_, rfl⟩
  have : pulseWrites (ready true (oks n ++ [bad .first])).cfg = 2 := rfl
  simp at hn; omega

theorem witness_ByteRequestsEndAtFailingWrite_settle : ∀ n ∈ [0, 5], ∃ (s : State) (oks rest : List BusAnswer) (e : BusErr),
    s.Free ∧ s.busIn = oks ++ { wrOk := false, wrErr := e } :: rest ∧ oks.all (·.wrOk) = true ∧
    oks.length = n ∧ n < 2 * pulseWrites s.cfg ∧ s.cfg.settle = true := by
  intro n hn
  refine ⟨readySettle (oks n ++ [bad .first]), oks n, [], .first, ⟨rfl, rfl⟩, rfl, by simp [oks], by simp [oks], ?_, rfl⟩
  have : pulseWrites (readySettle (oks n ++ [bad .first])).cfg = 3 := rfl
  simp at hn; omega

theorem witness_SetblRefreshes : (ready true (oks 1)).Free ∧ okAnswers 1 (ready true (oks 1)).busIn = true := by decide

theorem witness_SetblKeepsNewValueOnError : ((ready true []).Free ∧ (ready true []).busIn = []) ∧
    (ready true [bad .first]).Free ∧ (ready true [bad .first]).busIn = { wrOk := false, wrErr := .first } :: [] := by decide

theorem witness_SetblMakesNoTransfer : inStep.Free ∧ inStep.ELow ∧ inStep.rcv.quietUntil ≤ inStep.now ∧
    okAnswers 1 inStep.busIn = true := by decide

theorem witness_WaitusWaits : (ready true []).Free ∧ 0xFFFFFF#24 ≠ 0#24 ∧
    (0xFFFFFF#24).toNat < 2 ^ (ready true []).cfg.waitBits := by decide

theorem witness_IllegalOnlyResponds : (ready true []).Free := by decide

theorem witness_EveryInstructionCompletes : (ready true (oks 6)).Free ∧
    okAnswers 6 (ready true (oks 6)).busIn = true := by decide

/-- Also for ControlByteLines: the parameters of R8. -/
theorem witness_SplittingLaw : Params.default.Wf := by decide

theorem witness_ControlByteLines : Params.default.Wf ∧ WellFormed.controlClear Params.default 0xF9#8 = true := by decide

theorem witness_SenddataIsSendcmdWithRs : ∃ (s t u : State), exec (.sendcmd 0xC5#8) s = .next t ∧
    exec (.senddata 0xC5#8) s = .next u ∧ t.trace ≠ s.trace :=
  ⟨ready true (oks 3 ++ [bad .first]), _, _, rfl, rfl, by decide⟩

theorem hung_inv : hung.Inv :=
  ⟨by decide, by decide, by decide, by decide, by decide, by decide, by decide, by decide, by decide, by decide, by decide⟩

theorem witness_RwNeverHigh : (∃ (i : Instr) (s t : State), s.cfg.Wf ∧ exec i s = .next t) ∧
    ∃ s t : State, s.Inv ∧ step s = .next t :=
  ⟨⟨.sendcmd 0xFF#8, ready true (oks 4), _, by decide, rfl⟩, hung, _, hung_inv, rfl⟩

theorem witness_EveryByteCarriesBacklight : ∀ rs : Bool, ∃ s t : State, s.ntx.fsm = .idle ∧ s.cfg.Wf ∧
    exec (if rs then .senddata 0x41#8 else .sendcmd 0x41#8) s = .next t := by
  intro rs
  cases rs <;> exact ⟨ready true (oks 4), _, rfl, by decide, rfl⟩

theorem witness_OnlySetblWritesBacklight : ∃ (s t u : State), s.Free ∧ exec (.setbl false) s = .next t ∧
    exec (.wrnib 0x30#8) s = .next u := ⟨ready true (oks 2), _, _, by decide, rfl, rfl⟩

theorem witness_BusErrorIsPrecise : (∃ (i : Instr) (s t : State), s.Free ∧ exec i s = .next t ∧ t.ntx.fsm = .idle ∧
    t.ntx.rspStatus = 1#2) ∧ ∃ (i : Instr) (s t : State), s.Free ∧ exec i s = .next t ∧ t.ntx.fsm = .idle ∧
    t.ntx.rspStatus = 0#2 :=
  ⟨⟨.sendcmd 0xC5#8, ready true (oks 3 ++ [bad .first]), _, by decide, rfl, by decide, by decide⟩,
    ⟨.waitus 1#24, ready true [], _, by decide, rfl, by decide, by decide⟩⟩

theorem witness_StickyErrorStays : ∃ s t : State, s.rstIn = [] ∧ step s = .next t ∧ s.ntx.errs = true :=
  ⟨{ ready true (oks 2) with
      ntx := { Ntx.reset with errs := true }, hostIn := [.give (.request 0x01000030#32)] }, _, rfl, rfl, rfl⟩

theorem witness_UnansweredWriteHangs : (hung.Inv ∧ hung.ntx.fsm = .busy ∧ hung.busIn = [] ∧ hung.rstIn = []) ∧
    ∃ s : State, s.Inv ∧ s.ntx.fsm = .busy ∧ s.rstIn.head? = some 0 :=
  ⟨⟨hung_inv, rfl, rfl, rfl⟩, { hung with rstIn := [0] },
    ⟨by decide, by decide, by decide, by decide, by decide, by decide, by decide, by decide, by decide, by decide, by decide⟩,
    rfl, rfl⟩

theorem witness_SuspendedRequestResumes : ∃ (i : Instr) (s t : State), s.Free ∧ exec i s = .next t ∧ t.ntx.fsm = .busy :=
  ⟨.sendcmd 0xC5#8, ready true (oks 2), _, by decide, rfl, by decide⟩

theorem witness_StepKeepsInvariant : ∃ s t : State, s.Inv ∧ step s = .next t := ⟨hung, _, hung_inv, rfl⟩

theorem witness_TraceOnlyGrows : ∃ s t : State, step s = .next t :=
  ⟨State.reset.withFetchWord 32 0x01000030, _, rfl⟩

theorem witness_InstructionsLeaveHost : ∃ (i : Instr) (s t : State), exec i s = .next t :=
  ⟨.setbl true, ready true (oks 1), _, rfl⟩

theorem witness_ReceiverIsNeverRead : ∃ s t : State, step s = .next t := ⟨hung, _, rfl⟩

/-- Also for RegisterCommandsTakeEffect, OtherCommandsTakeEffect and SingleNibbleShiftsPhase. -/
theorem witness_SendcmdIsDelivered : inStep.Free ∧ inStep.cfg.Wf ∧ inStep.InStep ∧
    okAnswers (2 * pulseWrites inStep.cfg) inStep.busIn = true ∧ okAnswers (pulseWrites inStep.cfg) inStep.busIn = true ∧
    inStep.drv.life ≠ .initializing ∧ WellFormed.controlClear inStep.cfg 0x30#8 = true := by decide

theorem witness_SenddataLandsAtAddress : inStep.Free ∧ inStep.cfg.Wf ∧ inStep.InStep ∧
    okAnswers (2 * pulseWrites inStep.cfg) inStep.busIn = true ∧ inStep.rcv.addr = some 0x45#7 ∧ 0x45#7 ≠ 0x7F#7 ∧
    inStep.rcv.entry = some { leftToRight := true, shift := false } ∧ inStep.rcv.contentLost = false := by decide

/-- Each way in which WRNIB comes too soon. -/
theorem witness_BusyTransferLosesController_wrnib :
    ∀ r ∈ [{ inStep.rcv with busyUntil := 1000001 }, { inStep.rcv with quietUntil := 1000001 },
      { inRow [false, false, true] with pulseEnd := 999851 }, { inRow [true] with pulseEnd := 995501 }],
    ({ inStep with rcv := r }).Free ∧ inStep.cfg.Wf ∧ WellFormed.controlClear inStep.cfg 0x30#8 = true ∧
    okAnswers (pulseWrites inStep.cfg) inStep.busIn = true ∧ isSyncNibble inStep.cfg 0x30#8 = true ∧
    (inStep.now < r.busyUntil ∨ inStep.now < r.quietUntil ∨
      (r.pairing = .syncing false ∧ 3 ≤ r.syncRow.length ∧ inStep.now < r.pulseEnd + 150) ∨
      (r.pairing = .syncing false ∧ r.syncRow ≠ [] ∧ inStep.now < r.pulseEnd + 4500)) := by decide

/-- Each way in which SENDCMD and SENDDATA come too soon, or anywhere but at a byte's first half. -/
theorem witness_BusyTransferLosesController_byte :
    (∀ r ∈ [{ inStep.rcv with busyUntil := 1000001 }, { inStep.rcv with quietUntil := 1000001 },
      { inRow [false, false, true] with pulseEnd := 999851 }],
    ({ inStep with rcv := r }).Free ∧ inStep.cfg.Wf ∧ okAnswers (2 * pulseWrites inStep.cfg) inStep.busIn = true ∧
    (inStep.now < r.busyUntil ∨ inStep.now < r.quietUntil ∨
      (r.pairing = .syncing false ∧ 3 ≤ r.syncRow.length ∧ inStep.now < r.pulseEnd + 150))) ∧
    ∀ r ∈ [Receiver.reset, { inStep.rcv with mode := .bit8 }, halfByte],
    ({ inStep with rcv := r }).Free ∧ (r.mode ≠ .bit4 ∨ r.phase = .low ∨ r.pairing ≠ .between) := by decide

/-- Before Initialize, in framing and pairing that are known and that are not. -/
theorem witness_BusyTransferLosesController_setup : ∀ r ∈ [Receiver.reset, { inStep.rcv with setup := .missing }],
    ({ inStep with rcv := r }).Free ∧ inStep.cfg.Wf ∧ okAnswers (2 * pulseWrites inStep.cfg) inStep.busIn = true ∧
    r.setup = .missing := by decide

/-- SETBL too soon, and the lost content that stays. -/
theorem witness_BusyTransferLosesController :
    (∃ s : State, s.Free ∧ okAnswers 1 s.busIn = true ∧ s.now < s.rcv.quietUntil ∧ s.ELow ∧ s.rcv.busyUntil ≤ s.now) ∧
    ∃ s t : State, s.Inv ∧ step s = .next t ∧ s.rcv.contentLost = true :=
  ⟨⟨{ inStep with rcv := { inStep.rcv with quietUntil := 1000001 } }, by decide, rfl, by decide, by decide, by decide⟩,
    { hung with rcv := { Receiver.reset with contentLost := true } }, _,
    ⟨by decide, by decide, by decide, by decide, by decide, by decide, by decide, by decide, by decide, by decide, by decide⟩,
    rfl, rfl⟩

theorem witness_OperationNeedsReady : ∃ (s : State) (o : DriverOp) (rest : List HostInput), s.HostFree ∧
    s.hostIn = .op o :: rest ∧ s.drv.life ≠ .ready :=
  ⟨{ ready true [] with hostIn := [.op .clear] }, _, _, by decide, rfl, by decide⟩

theorem witness_SetBacklightWritesOnce : ∀ a ∈ [bad .first, { wrOk := true, wrErr := .first }], ∃ s : State,
    s.Asked (.setBacklight false) ∧ s.busIn = a :: [] :=
  fun a _ => ⟨{ asked (.setBacklight false) 0 with busIn := [a] }, ⟨⟨⟨rfl, rfl⟩, rfl, rfl⟩, rfl, rfl⟩, rfl⟩

theorem witness_FlagSettersSendComposite : ∀ o ∈ [DriverOp.setDisplayOn true, .setCursor true, .setBlink false],
    (asked o 4).Asked o ∧ okAnswers (2 * pulseWrites (asked o 4).cfg) (asked o 4).busIn = true := by decide

theorem witness_ClearAndHomeWait : ∀ o ∈ [DriverOp.clear, .home],
    (asked o 4).Asked o ∧ (asked o 4).cfg.Wf ∧ okAnswers (2 * pulseWrites (asked o 4).cfg) (asked o 4).busIn = true := by
  decide

theorem witness_RowOutsideTableFails : (asked (.setCursorPosition 0 4) 0).Asked (.setCursorPosition 0 4) ∧
    (asked (.setCursorPosition 0 (-1)) 0).Asked (.setCursorPosition 0 (-1)) := by decide

theorem witness_CursorPositionSendsAddress :
    ((asked (.setCursorPosition 43 3) 4).Asked (.setCursorPosition 43 3) ∧
      okAnswers (2 * pulseWrites (asked (.setCursorPosition 43 3) 4).cfg) (asked (.setCursorPosition 43 3) 4).busIn = true ∧
      ([0x00, 0x40, 0x14, 0x54].getD 3 0 : Int) + 43 ≤ 0x7F) ∧
    ((asked (.setCursorPosition 44 3) 0).Asked (.setCursorPosition 44 3) ∧
      ¬ (([0x00, 0x40, 0x14, 0x54].getD 3 0 : Int) + 44 ≤ 0x7F)) ∧
    (asked (.setCursorPosition (-1) 0) 0).Asked (.setCursorPosition (-1) 0) ∧ ¬ (0 ≤ (-1 : Int)) := by decide

theorem witness_PrintSendsEveryCharacter :
    ((asked (.print [0x41, 0x7F]) 8).Asked (.print [0x41, 0x7F]) ∧
      okAnswers (2 * pulseWrites (asked (.print [0x41, 0x7F]) 8).cfg * 2) (asked (.print [0x41, 0x7F]) 8).busIn = true ∧
      ∀ c ∈ [0x41, 0x7F], c < 0x80) ∧
    (asked (.print [0x80]) 0).Asked (.print [0x80]) ∧ ∃ c ∈ [0x80], 0x80 ≤ c := by decide

theorem witness_ErrorResponseEndsOperation : ∀ st ∈ [1#2, 2#2], ∃ (s : State) (todo : List HostLine), s.HostsTurn ∧
    s.drv.job = some { todo := todo, awaiting := true } ∧ s.ntx.rspValid = true ∧ s.ntx.rspStatus = st :=
  fun st _ => ⟨{ ready true [] with
      ntx := { Ntx.reset with rspValid := true, rspStatus := st }
      drv := { Driver.reset with life := .ready, job := some { todo := clearLines, awaiting := true } } }, clearLines,
    ⟨rfl, nofun, rfl⟩, rfl, rfl, rfl⟩

/-- A host asked to construct a driver. -/
def constructing (p : Params) (n : Nat) : State := { ready true (oks n) with cfg := p, hostIn := [.construct] }

/-- For InitializeRunsTheFixedSequence and InitializeRecoversController, without and with the first SETBL, and with the settle
write. -/
theorem witness_Initialize : ∀ p ∈ [Params.default, { Params.default with initBlWrite := true },
      { Params.default with initBlWrite := true, settle := true }],
    (constructing p 43).HostFree ∧ (constructing p 43).hostIn = .construct :: [] ∧ (constructing p 43).cfg.Wf ∧
    (p.settle = false ∨ (constructing p 43).ELow ∨ p.initBlWrite = true) ∧
    p.tEh + p.tPost + 2000 ≤ 1000000 ∧
    okAnswers ((if p.initBlWrite then 1 else 0) + 14 * pulseWrites p) (constructing p 43).busIn = true ∧
    (constructing p 43).rcv.busyUntil ≤ (constructing p 43).now + 1000000 ∧
    (constructing p 43).rcv.quietUntil ≤ (constructing p 43).now + 1000000 ∧
    (constructing p 43).rcv.pulseEnd ≤ (constructing p 43).now ∧ (constructing p 43).rcv.pairing = .lost := by decide

/-- For the last clause of InitializeRecoversController, where the first SETBL finds the controller ready. -/
theorem witness_InitializeRecoversController : ∃ s : State, s.HostFree ∧ s.hostIn = .construct :: [] ∧ s.cfg.Wf ∧
    s.cfg.initBlWrite = true ∧ s.rcv.busyUntil ≤ s.now ∧ s.rcv.quietUntil ≤ s.now ∧ s.rcv.pairing = .between ∧ s.ELow :=
  ⟨{ constructing { Params.default with initBlWrite := true } 43 with rcv := inStep.rcv, now := 1000000 }, by decide, rfl,
    by decide, rfl, by decide, by decide, rfl, by decide⟩

end Sys2Proof.Machine.Tests
end

/-! PROOFS. What a request and a step add to the trace, by the lines that are run; and that every byte written has RW low
(R61). -/

namespace Sys2Proof.Machine

/-! ## The events that a request and a step add -/

/-- The line of a request's pseudocode that emits the event (R11, R113). -/
def Event.line : Event → Line
  | .write v _ => .write v
  | .delay n => .startDelay n

/-- From `s` to `t` the trace grows by events of lines that meet `L`, and nothing on it is lost (R12). -/
def AddsOnly (L : Line → Prop) (s t : State) : Prop :=
  ∃ evs, t.trace = s.trace ++ evs ∧ ∀ e ∈ evs, L e.line

section AddsOnly

variable {L : Line → Prop} {s t u : State}

theorem AddsOnly.of_trace_eq (h : t.trace = s.trace) : AddsOnly L s t := ⟨[], by simp [h], by simp⟩

/-- One more event, of a line that meets `L`. -/
theorem AddsOnly.snoc {e : Event} (h : AddsOnly L s t) (he : L e.line) (hu : u.trace = t.trace ++ [e]) :
    AddsOnly L s u := by
  obtain ⟨evs, ht, hL⟩ := h
  refine ⟨evs ++ [e], by simp [hu, ht], fun f hf => ?_⟩
  rcases List.mem_append.mp hf with hf | hf
  · exact hL f hf
  · exact List.mem_singleton.mp hf ▸ he

theorem AddsOnly.congr_trace (h : AddsOnly L s t) (hu : u.trace = t.trace) : AddsOnly L s u := by
  obtain ⟨evs, ht, hL⟩ := h
  exact ⟨evs, hu.trans ht, hL⟩

@[simp] theorem abandon_trace (l : Line) (s : State) : (abandon l s).trace = s.trace := by
  cases l <;> rfl

/-- A request's events, however it ends, come from its lines. -/
theorem run_addsOnly {ls : List Line} (h : ∀ l ∈ ls, L l) : AddsOnly L s (run ls s) := by
  refine run_elim (I := fun ls t => (∀ l ∈ ls, L l) ∧ AddsOnly L s t) (Q := AddsOnly L s)
    ?done ?reset ?wait ?ok ?err ?start ?stop ls s ⟨h, .of_trace_eq rfl⟩
  case done => exact fun t ⟨_, ht⟩ => ht.congr_trace rfl
  case reset => exact fun l ls t ⟨_, ht⟩ _ => ht.congr_trace (by simp)
  case wait => exact fun v ls t ⟨_, ht⟩ _ _ => ht.congr_trace rfl
  case ok =>
    intro v ls t a as ⟨hls, ht⟩ _ _ _
    obtain ⟨hv, hls⟩ := List.forall_mem_cons.mp hls
    exact ⟨hls, ht.snoc (e := .write v .ok) hv rfl⟩
  case err =>
    intro v ls t a as ⟨hls, ht⟩ _ _ _
    exact ht.snoc (e := .write v (.err a.wrErr)) (List.forall_mem_cons.mp hls).1 rfl
  case start =>
    intro n ls t ⟨hls, ht⟩ _
    obtain ⟨hn, hls⟩ := List.forall_mem_cons.mp hls
    exact ⟨hls, ht.snoc (e := .delay n) hn rfl⟩
  case stop => exact fun n ls t ⟨hls, ht⟩ _ => ⟨(List.forall_mem_cons.mp hls).2, ht.congr_trace (by simp)⟩

@[simp] theorem prepared_trace (i : Instr) (s : State) : (prepared i s).trace = s.trace := by
  cases i <;> rfl

/-- In BUSY an instruction's request is not taken (R62). -/
theorem exec_busy (h : s.ntx.fsm = .busy) (i : Instr) : exec i s = .next s := by
  cases i <;> exact congrArg Host.Outcome.next (giveRequest_busy h)

/-- An instruction's events, however its request ends, come from its lines. -/
theorem exec_addsOnly {i : Instr} (hi : ∀ ls, requestLines s.cfg s.ntx.bl i = some ls → ∀ l ∈ ls, L l)
    (h : exec i s = .next t) : AddsOnly L s t := by
  cases hf : s.ntx.fsm with
  | busy =>
    obtain rfl : s = t := by simpa [exec_busy hf] using h
    exact .of_trace_eq rfl
  | idle =>
    rw [exec_idle hf, Host.Outcome.next.injEq] at h
    subst h
    cases hls : requestLines s.cfg s.ntx.bl i with
    | none => exact .of_trace_eq rfl
    | some ls =>
      obtain ⟨evs, hrun, hevs⟩ := run_addsOnly (s := prepared i (accept (encodeRequest i) s)) (hi ls hls)
      exact ⟨evs, by simpa using hrun, hevs⟩

/-- The events of a code that NTX is given come from the lines of an instruction. -/
theorem runCode_addsOnly {c : Code}
    (hi : ∀ i ls, requestLines s.cfg s.ntx.bl i = some ls → ∀ l ∈ ls, L l) (h : runCode c s = .next t) :
    AddsOnly L s t := by
  unfold runCode at h
  split at h <;> exact exec_addsOnly (hi _) h

/-- The events of the host's turn come from the lines of the instruction that NTX is given, if it is given one. -/
theorem runTurn_addsOnly {T : Turn} (hT : T.HostOnly s)
    (hi : ∀ i ls, requestLines s.cfg s.ntx.bl i = some ls → ∀ l ∈ ls, L l) (h : runTurn T = .next t) :
    AddsOnly L s t := by
  cases T with
  | wait u =>
    obtain rfl : u = s := hT
    obtain rfl := Host.Outcome.next.inj h
    exact .of_trace_eq rfl
  | act u =>
    obtain ⟨d, q, b, rfl⟩ := hT
    obtain rfl := Host.Outcome.next.inj h
    exact .of_trace_eq rfl
  | give c u =>
    obtain ⟨d, q, rfl⟩ := hT
    exact runCode_addsOnly (s := { s with drv := d, hostIn := q }) hi h
  | fault f => cases h
  | refuse r => cases h

/-- A step's events come from the lines still to run, or from those of an instruction that NTX is given. -/
theorem step_addsOnly (htodo : ∀ l ∈ s.ntx.todo, L l)
    (hi : ∀ i ls, requestLines s.cfg s.ntx.bl i = some ls → ∀ l ∈ ls, L l) (h : step s = .next t) :
    AddsOnly L s t := by
  by_cases hr : s.rstIn.head? = some 0
  · obtain rfl : resetNtx s = t := by simpa [step_reset hr] using h
    exact .of_trace_eq rfl
  · rw [step_noReset hr] at h
    cases hf : s.ntx.fsm with
    | busy =>
      obtain rfl : resume s = t := by simpa [hf] using h
      exact run_addsOnly htodo
    | idle =>
      simp only [hf] at h
      exact runTurn_addsOnly (s := tick s) (hostTurn_hostOnly _) hi h

end AddsOnly

/-! ## RW is low in every byte of a request (R61) -/

section RwLow

variable {p : Params} {bl : Bool} {v : Byte}

@[simp] theorem Line.rwLow_write (p : Params) (v : Byte) :
    (Line.write v).rwLow p = true ↔ v.getLsbD p.rwBit.val = false := by
  simp [Line.rwLow]

theorem Event.rwLow_eq_line (p : Params) (e : Event) : e.rwLow p = e.line.rwLow p := by
  cases e <;> rfl

theorem backlightByte_rw (hp : p.Wf) : (backlightByte p bl).getLsbD p.rwBit.val = false := by
  obtain ⟨_, _, _, _, hrwBl, _⟩ := hp
  simp [backlightByte_bit, Fin.val_inj, hrwBl]

theorem overlay_rw (hp : p.Wf) : (overlay p bl v).getLsbD p.rwBit.val = v.getLsbD p.rwBit.val := by
  simp [overlay, backlightByte_rw hp]

theorem raiseE_rw (hp : p.Wf) : (raiseE p v).getLsbD p.rwBit.val = v.getLsbD p.rwBit.val := by
  obtain ⟨_, _, _, hrwE, _, _⟩ := hp
  simp [raiseE_bit, Fin.val_inj, hrwE]

/-- The control lines are no data lines: none is set by a mask of D7 to D4 (R74). -/
theorem dataMask_controlBit (k : Fin 4) : (0xF0#8).getLsbD k.val = false := by
  revert k
  decide

theorem registerSelect_rw (hp : p.Wf) (rs : Bool) : (registerSelect p rs).getLsbD p.rwBit.val = false := by
  obtain ⟨hrsRw, _⟩ := hp
  simp [registerSelect_bit, Fin.val_inj, Ne.symm hrsRw]

theorem hiNibble_rw (hp : p.Wf) (b : Byte) (rs : Bool) : (hiNibble p b rs).getLsbD p.rwBit.val = false := by
  simp [hiNibble, dataMask_controlBit, registerSelect_rw hp]

theorem loNibble_rw (hp : p.Wf) (b : Byte) (rs : Bool) : (loNibble p b rs).getLsbD p.rwBit.val = false := by
  simp [loNibble, dataMask_controlBit, registerSelect_rw hp]

theorem delayLines_rwLow (p : Params) {n : Nat} : ∀ l ∈ delayLines n, l.rwLow p = true := by
  simp [delayLines, Line.rwLow]

theorem pulseLines_rwLow (hp : p.Wf) (hv : v.getLsbD p.rwBit.val = false) :
    ∀ l ∈ pulseLines p bl v, l.rwLow p = true := by
  have hlow : (overlay p bl v).getLsbD p.rwBit.val = false := (overlay_rw hp).trans hv
  have hhigh : (raiseE p (overlay p bl v)).getLsbD p.rwBit.val = false := (raiseE_rw hp).trans hlow
  intro l hl
  simp only [pulseLines, List.mem_append, List.mem_singleton] at hl
  obtain ((((hl | rfl) | hl) | rfl) | hl) := hl
  · obtain ⟨-, rfl⟩ : p.settle = true ∧ l = .write (overlay p bl v) := by simpa using hl
    exact (Line.rwLow_write p _).mpr hlow
  · exact (Line.rwLow_write p _).mpr hhigh
  · exact delayLines_rwLow p l hl
  · exact (Line.rwLow_write p _).mpr hlow
  · exact delayLines_rwLow p l hl

theorem byteLines_rwLow (hp : p.Wf) (b : Byte) (rs : Bool) : ∀ l ∈ byteLines p bl b rs, l.rwLow p = true :=
  List.forall_mem_append.mpr ⟨pulseLines_rwLow hp (hiNibble_rw hp b rs), pulseLines_rwLow hp (loNibble_rw hp b rs)⟩

theorem waitLines_rwLow (p : Params) (n : BitVec 24) : ∀ l ∈ waitLines n, l.rwLow p = true := by
  unfold waitLines
  split
  · simp
  · exact delayLines_rwLow p

/-- R61 for what an instruction runs: a WRNIB operand with RW set has no lines (R90), and no other request sets it. -/
theorem requestLines_rwLow (hp : p.Wf) {i : Instr} {ls : List Line} (h : requestLines p bl i = some ls) :
    ∀ l ∈ ls, l.rwLow p = true := by
  cases i with
  | wrnib v =>
    obtain ⟨hv, rfl⟩ : illegalOperand p v = false ∧ pulseLines p bl v = ls := by simpa [requestLines] using h
    obtain ⟨-, hrw⟩ : v.getLsbD p.eBit.val = false ∧ v.getLsbD p.rwBit.val = false := by
      simpa [illegalOperand] using hv
    exact pulseLines_rwLow hp hrw
  | setbl x =>
    obtain rfl : [.write (backlightByte p x)] = ls := by simpa [requestLines] using h
    simp [backlightByte_rw hp]
  | waitus n =>
    obtain rfl : waitLines n = ls := by simpa [requestLines] using h
    exact waitLines_rwLow p n
  | illegal w => simp [requestLines] at h
  | _ =>
    obtain rfl := Option.some.inj h
    exact byteLines_rwLow hp _ _

end RwLow

/-- What `AddsOnly` says of R61. -/
theorem AddsOnly.events_rwLow {p : Params} {s t : State} (h : AddsOnly (fun l => l.rwLow p = true) s t) :
    ∃ evs, t.trace = s.trace ++ evs ∧ evs.all (Event.rwLow p) = true := by
  obtain ⟨evs, ht, hevs⟩ := h
  refine ⟨evs, ht, List.all_eq_true.mpr fun e he => ?_⟩
  rw [Event.rwLow_eq_line]
  exact hevs e he

/-- Settles O32: every event comes from a line, every line of an instruction keeps RW low, and the invariant says so of the
lines that still wait. -/
theorem rwNeverHigh : Obligations.RwNeverHigh := by
  unfold Obligations.RwNeverHigh
  constructor
  · intro i s t hp h
    exact (exec_addsOnly (fun _ => requestLines_rwLow hp) h).events_rwLow
  · intro s t hs h
    exact (step_addsOnly (List.all_eq_true.mp hs.todoRwLow) (fun _ _ => requestLines_rwLow hs.params) h).events_rwLow

end Sys2Proof.Machine

/-! PROOFS. Every request word decodes to the one row of R73 whose conditions it meets. -/

namespace Sys2Proof

/-- The word is one of the instruction's row of R73: its opcode, its must-be-zero bits, and the operand its field holds. ILLEGAL
is every word of no other row (R72). -/
def RequestRow (p : Params) (w : Word) : Instr → Prop
  | .wrnib v => w.extractLsb' 24 8 = 0x01#8 ∧ w.extractLsb' 8 16 = 0#16 ∧ w.getLsbD p.eBit.val = false ∧
      w.getLsbD p.rwBit.val = false ∧ v = w.extractLsb' 0 8
  | .sendcmd b => w.extractLsb' 24 8 = 0x02#8 ∧ w.extractLsb' 8 16 = 0#16 ∧ b = w.extractLsb' 0 8
  | .senddata b => w.extractLsb' 24 8 = 0x03#8 ∧ w.extractLsb' 8 16 = 0#16 ∧ b = w.extractLsb' 0 8
  | .setbl x => w.extractLsb' 24 8 = 0x04#8 ∧ w.extractLsb' 1 23 = 0#23 ∧ x = w.getLsbD 0
  | .waitus n => w.extractLsb' 24 8 = 0x05#8 ∧ n.toNat < 2 ^ p.waitBits ∧ n = w.extractLsb' 0 24
  | .illegal u => u = w ∧
      ¬ (w.extractLsb' 24 8 = 0x01#8 ∧ w.extractLsb' 8 16 = 0#16 ∧ w.getLsbD p.eBit.val = false ∧
        w.getLsbD p.rwBit.val = false) ∧
      ¬ (w.extractLsb' 24 8 = 0x02#8 ∧ w.extractLsb' 8 16 = 0#16) ∧
      ¬ (w.extractLsb' 24 8 = 0x03#8 ∧ w.extractLsb' 8 16 = 0#16) ∧
      ¬ (w.extractLsb' 24 8 = 0x04#8 ∧ w.extractLsb' 1 23 = 0#23) ∧
      ¬ (w.extractLsb' 24 8 = 0x05#8 ∧ (w.extractLsb' 0 24).toNat < 2 ^ p.waitBits)
  | _ => False

/-- Every word decodes to an instruction of its row. -/
theorem requestRow_decodeRequest (p : Params) (w : Word) : RequestRow p w (decodeRequest p w) := by
  rw [decodeRequest_fields]
  split_ifs with h1 h2 h3 h4 h5
  · obtain ⟨hop, hzero, he, hrw⟩ := h1
    exact ⟨hop, hzero, he, hrw, rfl⟩
  · exact ⟨h2.1, h2.2, rfl⟩
  · exact ⟨h3.1, h3.2, rfl⟩
  · exact ⟨h4.1, h4.2, rfl⟩
  · exact ⟨h5.1, h5.2, rfl⟩
  · exact ⟨rfl, h1, h2, h3, h4, h5⟩

/-- A word of an instruction's row decodes to that instruction: the opcode rules out the rows before it. -/
theorem RequestRow.decodeRequest_eq {p : Params} {w : Word} {i : Instr} (h : RequestRow p w i) : decodeRequest p w = i := by
  rw [decodeRequest_fields]
  cases i with
  | wrnib v =>
    obtain ⟨hop, hzero, he, hrw, rfl⟩ := h
    exact if_pos ⟨hop, hzero, he, hrw⟩
  | sendcmd b =>
    obtain ⟨hop, hzero, rfl⟩ := h
    simp [hop, hzero]
  | senddata b =>
    obtain ⟨hop, hzero, rfl⟩ := h
    simp [hop, hzero]
  | setbl x =>
    obtain ⟨hop, hzero, rfl⟩ := h
    simp [hop, hzero]
  | waitus n =>
    obtain ⟨hop, hfits, rfl⟩ := h
    simpa [hop] using hfits
  | illegal u =>
    obtain ⟨rfl, h1, h2, h3, h4, h5⟩ := h
    rw [if_neg h1, if_neg h2, if_neg h3, if_neg h4, if_neg h5]
  | _ => exact h.elim

/-- R73: a word decodes to exactly the instruction of its row. -/
theorem decodeRequest_eq_iff (p : Params) (w : Word) (i : Instr) : decodeRequest p w = i ↔ RequestRow p w i :=
  ⟨fun h => h ▸ requestRow_decodeRequest p w, RequestRow.decodeRequest_eq⟩

/-- At the default width every count fits (R71). -/
theorem waitCount_fits_default (n : BitVec 24) : n.toNat < 2 ^ Params.default.waitBits := n.isLt

/-- Settles O7: each clause is `decodeRequest_eq_iff` for one row, at the default control bits and the default count width. -/
theorem everyWordDecodesByItsRow : Obligations.EveryWordDecodesByItsRow := by
  unfold Obligations.EveryWordDecodesByItsRow
  intro w
  refine ⟨fun v => decodeRequest_eq_iff _ w (.wrnib v), fun b => decodeRequest_eq_iff _ w (.sendcmd b),
    fun b => decodeRequest_eq_iff _ w (.senddata b), fun x => decodeRequest_eq_iff _ w (.setbl x), fun n => ?_, fun u => ?_⟩
  · rw [decodeRequest_eq_iff]
    simp only [RequestRow, waitCount_fits_default, true_and]
  · rw [decodeRequest_eq_iff]
    simp only [RequestRow, waitCount_fits_default, and_true]
    exact Iff.rfl

end Sys2Proof

/-! PROOFS. How the nibble transmitter's WRNIB ends when it makes no full pulse: ILLEGAL for its operand (R90), or at its first
failing write (R95). The rule for a failing write is stated for the lines of any request (R140). -/

namespace Sys2Proof.Machine

/-! ## A request that ends at its first failing write -/

/-- The events that the lines make when every write is answered `ok`. -/
def okEvents : List Line → List Event
  | [] => []
  | .write v :: ls => .write v .ok :: okEvents ls
  | .startDelay n :: ls => .delay n :: okEvents ls
  | .endDelay _ :: ls => okEvents ls

/-- One enable pulse makes the events of R91 and R93. -/
@[simp] theorem okEvents_pulseLines (p : Params) (bl : Bool) (v : Byte) :
    okEvents (pulseLines p bl v) = pulseEvents p bl v := by
  cases hs : p.settle <;> simp [pulseLines, pulseEvents, delayLines, okEvents, hs]

/-- From `s`, with the events `evs`, a request has ended in `BusError(e)` at `t`, where the bus still has the answers `rest`;
of the expander and the controller nothing is then known (R47, R95, R140, R144). -/
structure EndsInBusError (s t : State) (evs : List Event) (e : BusErr) (rest : List BusAnswer) : Prop where
  trace : t.trace = s.trace ++ evs
  rspStatus : t.ntx.rspStatus = statusBusError
  rspInfo : t.ntx.rspInfo = e
  errs : t.ntx.errs = true
  rspValid : t.ntx.rspValid = true
  fsm : t.ntx.fsm = .idle
  bl : t.ntx.bl = s.ntx.bl
  pins : t.rcv.pins = none
  mode : t.rcv.mode = .unknown
  ddram : t.rcv.ddram = []
  busIn : t.busIn = rest

section EndsInBusError

variable {s t u : State} {evs evs' : List Event} {v : Byte} {e : BusErr} {oks rest : List BusAnswer}

/-- The failing write itself. -/
theorem writeErr_endsInBusError (v : Byte) (e : BusErr) (s : State) :
    EndsInBusError s (writeErr v e s) [.write v (.err e)] e s.busIn := by
  constructor <;> rfl

/-- What a request has done before its failing write stands. -/
theorem EndsInBusError.after (h : EndsInBusError u t evs' e rest) (htrace : u.trace = s.trace ++ evs)
    (hbl : u.ntx.bl = s.ntx.bl) : EndsInBusError s t (evs ++ evs') e rest :=
  { h with
    trace := by simp [h.trace, htrace]
    bl := h.bl.trans hbl }

/-- The lines of a request whose first failing answer comes after `oks` end in `BusError(e)` at write number `oks.length`, with
the events before it and no event after it. -/
theorem run_endsInBusError {ls : List Line} (hr : s.rstIn = [])
    (hb : s.busIn = oks ++ { wrOk := false, wrErr := e } :: rest) (hoks : oks.all (·.wrOk) = true)
    (hv : nthWrite oks.length (okEvents ls) = some v) :
    EndsInBusError s (run ls s) (untilWrite oks.length (okEvents ls) ++ [.write v (.err e)]) e rest := by
  induction ls generalizing s oks with
  | nil => simp [okEvents, nthWrite] at hv
  | cons l ls ih =>
    cases l with
    | write x =>
      cases oks with
      | nil =>
        obtain rfl : x = v := by simpa [okEvents, nthWrite] using hv
        rw [run_write_err hr hb rfl]
        exact (writeErr_endsInBusError x e { s with busIn := rest }).after (s := s) (evs := []) (by simp) rfl
      | cons a oks =>
        obtain ⟨ha, hoks⟩ : a.wrOk = true ∧ oks.all (·.wrOk) = true := by simpa using hoks
        rw [run_write_ok hr hb ha]
        exact (ih (s := writeOk x { s with busIn := _ }) hr rfl hoks hv).after (s := s) (writeOk_trace x _) rfl
    | startDelay n =>
      rw [run_startDelay hr]
      exact (ih (s := startDelay n s) hr hb hoks hv).after (startDelay_trace n s) rfl
    | endDelay n =>
      rw [run_endDelay hr]
      exact (ih (s := endDelay n s) (by simpa using hr) (by simpa using hb) hoks hv).after (evs := []) (by simp) (by simp)

end EndsInBusError

/-! ## WRNIB -/

/-- The bytes that one enable pulse writes: E is high in the last but one, and low in every other (R91, R93). -/
theorem nthWrite_pulseEvents {p : Params} {n : Nat} (hn : n < pulseWrites p) (bl : Bool) (v : Byte) :
    nthWrite n (pulseEvents p bl v) =
      some (if n + 2 = pulseWrites p then raiseE p (overlay p bl v) else overlay p bl v) := by
  cases hs : p.settle with
  | false =>
    have hn : n < 2 := by simpa [pulseWrites, hs] using hn
    interval_cases n <;> simp [pulseEvents, pulseWrites, nthWrite, hs]
  | true =>
    have hn : n < 3 := by simpa [pulseWrites, hs] using hn
    interval_cases n <;> simp [pulseEvents, pulseWrites, nthWrite, hs]

/-- WRNIB's word: `OP` 0x01, the must-be-zero bits, and the operand (R68). -/
theorem encodeRequest_wrnib (v : Byte) : encodeRequest (.wrnib v) = 0x010000#24 ++ v :=
  encodeByteRequest_eq 0x01#8 v

/-- R90: the two checks of an operand say the same. -/
theorem illegalOperand_eq_false_iff (p : Params) (v : Byte) :
    illegalOperand p v = false ↔ WellFormed.controlClear p v = true := by
  simp [illegalOperand, WellFormed.controlClear]

/-- A WRNIB of an illegal operand is accepted, and does nothing but respond. -/
theorem exec_wrnib_illegal {s : State} {v : Byte} (hs : s.ntx.fsm = .idle) (hv : illegalOperand s.cfg v = true) :
    exec (.wrnib v) s = .next (raiseIllegal (accept (encodeRequest (.wrnib v)) s)) := by
  rw [exec_idle hs]
  simp [requestLines, hv]

/-- A WRNIB of a legal operand runs the lines of one enable pulse. -/
theorem exec_wrnib_legal {s : State} {v : Byte} (hs : s.ntx.fsm = .idle) (hv : WellFormed.controlClear s.cfg v = true) :
    exec (.wrnib v) s =
      .next (run (pulseLines s.cfg s.ntx.bl v) (prepared (.wrnib v) (accept (encodeRequest (.wrnib v)) s))) := by
  rw [exec_idle hs]
  simp [requestLines, (illegalOperand_eq_false_iff s.cfg v).mpr hv]

/-- R95: a legal WRNIB whose first failing answer comes after `oks` ends in `BusError(e)` at that write of its pulse. -/
theorem exec_wrnib_endsInBusError {s : State} {v : Byte} {oks rest : List BusAnswer} {e : BusErr} (hs : s.Free)
    (hv : WellFormed.controlClear s.cfg v = true) (hb : s.busIn = oks ++ { wrOk := false, wrErr := e } :: rest)
    (hoks : oks.all (·.wrOk) = true) (hn : oks.length < pulseWrites s.cfg) :
    ∃ t, exec (.wrnib v) s = .next t ∧
      EndsInBusError s t (untilWrite oks.length (pulseEvents s.cfg s.ntx.bl v) ++
        [.write (if oks.length + 2 = pulseWrites s.cfg then raiseE s.cfg (overlay s.cfg s.ntx.bl v)
          else overlay s.cfg s.ntx.bl v) (.err e)]) e rest := by
  obtain ⟨hidle, hrst⟩ := hs
  refine ⟨_, exec_wrnib_legal hidle hv, ?_⟩
  have hend := run_endsInBusError (s := prepared (.wrnib v) (accept (encodeRequest (.wrnib v)) s))
    (ls := pulseLines s.cfg s.ntx.bl v) hrst hb hoks (by simpa using nthWrite_pulseEvents hn s.ntx.bl v)
  simpa using hend.after (s := s) (evs := []) (by simp) rfl

/-- Settles O16: the operand's check comes before any write, and `raiseIllegal` writes the response only. -/
theorem wrnibIllegalOperand : Obligations.WrnibIllegalOperand := by
  unfold Obligations.WrnibIllegalOperand
  intro s v ⟨hidle, _⟩ hv
  rw [exec_wrnib_illegal hidle (by simpa [illegalOperand] using hv), encodeRequest_wrnib]
  rfl

/-- Settles O17: the pulse ends in `BusError(e)` at its write number `oks.length`; each clause on the trace reads off the events
before that write, and its byte. -/
theorem wrnibBusError : Obligations.WrnibBusError := by
  unfold Obligations.WrnibBusError
  intro s v oks rest e hs hv hb hoks hn
  obtain ⟨t, hexec, h⟩ := exec_wrnib_endsInBusError hs hv hb hoks hn
  refine ⟨t, hexec, h.rspStatus, h.rspInfo, h.errs, h.rspValid, h.fsm, h.bl, h.pins, h.busIn, ?_, ?_, ?_, ?_, ?_⟩
  all_goals
    intro hsettle hlen
    simp [h.trace, hlen, pulseEvents, pulseWrites, untilWrite, hsettle]

end Sys2Proof.Machine

/-! PROOFS. The command/data splitter: the bits of the two nibbles of a byte (R109), and what SENDDATA's traffic has beside
SENDCMD's (R110). The events that a request's lines make are named as a function of the lines, the bus's answers and the
schedule of resets, so that the traces of two requests can be compared line by line. -/

namespace Sys2Proof.Machine

/-! ## The two nibbles of a byte (R105, R109) -/

/-- A control bit moves no data line (R74). -/
theorem dataLines_or_lineMask (v : Byte) (k : Fin 4) : dataLines (v ||| lineMask k) = dataLines v := by
  apply BitVec.eq_of_getLsbD_eq
  intro i hi
  simp [dataLines, lineMask_bit, show 4 + i ≠ k.val by omega]

theorem dataLines_or_registerSelect (p : Params) (v : Byte) (rs : Bool) :
    dataLines (v ||| registerSelect p rs) = dataLines v := by
  cases rs with
  | false => simp [registerSelect]
  | true => exact dataLines_or_lineMask v p.rsBit

/-- The mask of D7 to D4 keeps them (R105). -/
theorem dataLines_and_dataMask (v : Byte) : dataLines (v &&& 0xF0#8) = dataLines v := by
  rw [dataLines, BitVec.extractLsb'_and]
  exact BitVec.and_allOnes

/-- The shift brings bits 3 to 0 of a byte into position (R105). -/
theorem dataLines_shiftLeft_four (b : Byte) : dataLines (b <<< 4) = b.extractLsb' 0 4 := by
  apply BitVec.eq_of_getLsbD_eq
  intro i hi
  rw [dataLines, BitVec.getLsbD_extractLsb', BitVec.getLsbD_shiftLeft, BitVec.getLsbD_extractLsb']
  simp [show 4 + i < 8 by omega]

theorem dataLines_hiNibble (p : Params) (b : Byte) (rs : Bool) : dataLines (hiNibble p b rs) = b.extractLsb' 4 4 := by
  rw [hiNibble, dataLines_or_registerSelect, dataLines_and_dataMask, dataLines]

theorem dataLines_loNibble (p : Params) (b : Byte) (rs : Bool) : dataLines (loNibble p b rs) = b.extractLsb' 0 4 := by
  rw [loNibble, dataLines_or_registerSelect, dataLines_and_dataMask, dataLines_shiftLeft_four]

theorem registerSelect_controlBit (p : Params) (rs : Bool) (j : Fin 4) :
    (registerSelect p rs).getLsbD j.val = (rs && decide (j = p.rsBit)) := by
  simp [registerSelect_bit, Fin.ext_iff]

theorem hiNibble_controlBit (p : Params) (b : Byte) (rs : Bool) (j : Fin 4) :
    (hiNibble p b rs).getLsbD j.val = (rs && decide (j = p.rsBit)) := by
  simp [hiNibble, dataMask_controlBit, registerSelect_controlBit]

theorem loNibble_controlBit (p : Params) (b : Byte) (rs : Bool) (j : Fin 4) :
    (loNibble p b rs).getLsbD j.val = (rs && decide (j = p.rsBit)) := by
  simp [loNibble, dataMask_controlBit, registerSelect_controlBit]

/-- Settles O28: each half is `dataLines` of its nibble, the halves append to the byte, and the mask of R105 leaves no control bit
but RS. -/
theorem splittingLaw : Obligations.SplittingLaw := by
  unfold Obligations.SplittingLaw
  intro p b rs _
  refine ⟨dataLines_hiNibble p b rs, dataLines_loNibble p b rs, ?_, hiNibble_controlBit p b rs, loNibble_controlBit p b rs⟩
  rw [dataLines_hiNibble, dataLines_loNibble]
  exact (BitVec.extractLsb'_append_extractLsb'_eq_extractLsb' rfl).trans BitVec.extractLsb'_eq_self

/-! ## The events of a request's lines -/

/-- The events that the lines make, with these answers of the bus and these resets to come: as far as a reset, a write that the
bus does not answer, or a failing write, which is the last (R53, R95, R145, R158). -/
def lineEvents : List Line → List BusAnswer → List Nat → List Event
  | [], _, _ => []
  | l :: ls, as, rst =>
    if rst.head? = some 0 then []
    else
      match l with
      | .write v =>
        match as with
        | [] => []
        | a :: as =>
          if a.wrOk then .write v .ok :: lineEvents ls as (rst.modifyHead (· - 1)) else [.write v (.err a.wrErr)]
      | .startDelay n => .delay n :: lineEvents ls as (rst.modifyHead (· - 1))
      | .endDelay _ => lineEvents ls as (rst.modifyHead (· - 1))

/-- A request adds to the trace exactly the events of its lines. -/
theorem run_trace (ls : List Line) (s : State) : (run ls s).trace = s.trace ++ lineEvents ls s.busIn s.rstIn := by
  refine run_elim (I := fun ls' t => t.trace ++ lineEvents ls' t.busIn t.rstIn = s.trace ++ lineEvents ls s.busIn s.rstIn)
    (Q := fun t => t.trace = s.trace ++ lineEvents ls s.busIn s.rstIn) ?done ?reset ?wait ?ok ?err ?start ?stop ls s rfl
  case done =>
    intro t ht
    simpa [lineEvents] using ht
  case reset =>
    intro l ls' t ht hr
    simpa [lineEvents, hr] using ht
  case wait =>
    intro v ls' t ht hr hb
    simpa [lineEvents, hr, hb] using ht
  case ok =>
    intro v ls' t a as ht hr hb ha
    simpa [lineEvents, hr, hb, ha] using ht
  case err =>
    intro v ls' t a as ht hr hb ha
    simpa [lineEvents, hr, hb, ha] using ht
  case start =>
    intro n ls' t ht hr
    simpa [lineEvents, hr] using ht
  case stop =>
    intro n ls' t ht hr
    simpa [lineEvents, hr] using ht

@[simp] theorem prepared_busIn (i : Instr) (s : State) : (prepared i s).busIn = s.busIn := by
  cases i <;> rfl

@[simp] theorem prepared_rstIn (i : Instr) (s : State) : (prepared i s).rstIn = s.rstIn := by
  cases i <;> rfl

/-- What an instruction with lines adds to the trace, given to NTX in IDLE. -/
theorem exec_idle_trace {s t : State} {i : Instr} {ls : List Line} (hidle : s.ntx.fsm = .idle)
    (hls : requestLines s.cfg s.ntx.bl i = some ls) (h : exec i s = .next t) :
    t.trace = s.trace ++ lineEvents ls s.busIn s.rstIn := by
  obtain rfl : run ls (prepared i (accept (encodeRequest i) s)) = t := by simpa [exec_idle hidle, hls] using h
  simp [run_trace]

/-! ## SENDDATA beside SENDCMD (R110) -/

/-- The line with its byte, if it writes one, changed by `f`. -/
def Line.mapByte (f : Byte → Byte) : Line → Line
  | .write v => .write (f v)
  | .startDelay n => .startDelay n
  | .endDelay n => .endDelay n

/-- The event with its byte, if it is a write, changed by `f`. -/
def Event.mapByte (f : Byte → Byte) : Event → Event
  | .write v r => .write (f v) r
  | .delay n => .delay n

/-- NTX looks at no byte that it writes: lines with other bytes make the same events with those bytes (R46). -/
theorem lineEvents_mapByte (f : Byte → Byte) (ls : List Line) (as : List BusAnswer) (rst : List Nat) :
    lineEvents (ls.map (Line.mapByte f)) as rst = (lineEvents ls as rst).map (Event.mapByte f) := by
  induction ls generalizing as rst with
  | nil => rfl
  | cons l ls ih =>
    by_cases hr : rst.head? = some 0
    · simp [lineEvents, hr]
    · cases l with
      | write v =>
        cases as with
        | nil => simp [lineEvents, Line.mapByte, hr]
        | cons a as => cases ha : a.wrOk <;> simp [lineEvents, Line.mapByte, Event.mapByte, hr, ha, ih]
      | startDelay n => simp [lineEvents, Line.mapByte, Event.mapByte, hr, ih]
      | endDelay n => simp [lineEvents, Line.mapByte, hr, ih]

/-- The byte with RS raised. -/
def raiseRs (p : Params) (v : Byte) : Byte := v ||| lineMask p.rsBit

theorem hiNibble_true (p : Params) (b : Byte) : hiNibble p b true = raiseRs p (hiNibble p b false) := by
  simp [hiNibble, raiseRs, registerSelect]

theorem loNibble_true (p : Params) (b : Byte) : loNibble p b true = raiseRs p (loNibble p b false) := by
  simp [loNibble, raiseRs, registerSelect]

theorem overlay_raiseRs (p : Params) (bl : Bool) (v : Byte) : overlay p bl (raiseRs p v) = raiseRs p (overlay p bl v) := by
  simp only [overlay, raiseRs]
  ac_rfl

theorem raiseE_raiseRs (p : Params) (v : Byte) : raiseE p (raiseRs p v) = raiseRs p (raiseE p v) := by
  simp only [raiseE, raiseRs]
  ac_rfl

/-- A pulse with RS raised in its operand has it raised in every byte (R91). -/
theorem pulseLines_raiseRs (p : Params) (bl : Bool) (v : Byte) :
    pulseLines p bl (raiseRs p v) = (pulseLines p bl v).map (Line.mapByte (raiseRs p)) := by
  cases hs : p.settle <;> simp [pulseLines, delayLines, Line.mapByte, overlay_raiseRs, raiseE_raiseRs, hs]

/-- SENDDATA's lines are SENDCMD's with RS raised in every byte (R106, R107). -/
theorem byteLines_true (p : Params) (bl : Bool) (b : Byte) :
    byteLines p bl b true = (byteLines p bl b false).map (Line.mapByte (raiseRs p)) := by
  simp [byteLines, hiNibble_true, loNibble_true, pulseLines_raiseRs]

/-- R110: SENDDATA adds the events that SENDCMD of the same byte adds, with RS raised in every byte written. -/
theorem exec_senddata_trace {s t u : State} {b : Byte} (ht : exec (.sendcmd b) s = .next t)
    (hu : exec (.senddata b) s = .next u) :
    ∃ evs, t.trace = s.trace ++ evs ∧ u.trace = s.trace ++ evs.map (Event.mapByte (raiseRs s.cfg)) := by
  cases hf : s.ntx.fsm with
  | busy =>
    obtain rfl : s = t := by simpa [exec_busy hf] using ht
    obtain rfl : s = u := by simpa [exec_busy hf] using hu
    exact ⟨[], by simp, by simp⟩
  | idle =>
    refine ⟨_, exec_idle_trace hf rfl ht, ?_⟩
    rw [exec_idle_trace hf rfl hu, byteLines_true, lineEvents_mapByte]

/-- Settles O30: the two requests run the same lines but for RS, and the events follow the lines. -/
theorem senddataIsSendcmdWithRs : Obligations.SenddataIsSendcmdWithRs := by
  unfold Obligations.SenddataIsSendcmdWithRs
  intro s t u b ht hu
  obtain ⟨evs, hcmd, hdata⟩ := exec_senddata_trace ht hu
  refine ⟨evs, hcmd, hdata.trans (congrArg _ (List.map_congr_left fun e _ => ?_))⟩
  cases e <;> rfl

end Sys2Proof.Machine

/-! PROOFS. The delay timer's request: the word of WAITUS, and the two ways in which it runs (R112). -/

namespace Sys2Proof.Machine

/-- R71, R73: the word of opcode 0x05 is in WAITUS's row, with its count as operand, if the count fits. -/
theorem requestRow_waitus {p : Params} {n : BitVec 24} (hn : n.toNat < 2 ^ p.waitBits) :
    RequestRow p (encodeRequest (.waitus n)) (.waitus n) :=
  ⟨Laws.RequestOpcode.waitus n, hn, BitVec.extractLsb'_append_eq_right.symm⟩

/-- WAITUS in IDLE is accepted and runs its lines, with no check before them. -/
theorem exec_waitus {s : State} (hs : s.ntx.fsm = .idle) (n : BitVec 24) :
    exec (.waitus n) s = .next (run (waitLines n) (accept (encodeRequest (.waitus n)) s)) :=
  exec_idle hs (.waitus n)

/-- `WAITUS 0` has no lines: only the response is left. -/
theorem run_waitLines_zero (s : State) : run (waitLines 0#24) s = respond statusOk s := rfl

/-- WAITUS of a count other than 0 is one whole `Delay`, then the response. -/
theorem run_waitLines {n : BitVec 24} {s : State} (hn : n ≠ 0#24) (hr : s.rstIn = []) :
    run (waitLines n) s = respond statusOk
      { s with ntx := { s.ntx with tmr := none }, trace := s.trace ++ [.delay n.toNat], now := s.now + n.toNat } := by
  rw [waitLines, if_neg hn]
  simpa using run_delayLines (n := n.toNat) (ls := []) hr

/-- Settles O23: the word is in WAITUS's row, and the request runs no line for 0, and else the lines of one `Delay`. -/
theorem waitusWaits : Obligations.WaitusWaits := by
  unfold Obligations.WaitusWaits
  intro s n ⟨hidle, hrst⟩
  refine ⟨fun hn => (requestRow_waitus hn).decodeRequest_eq, fun hn => ?zero, fun hn => ?wait⟩
  case zero =>
    subst hn
    rw [exec_waitus hidle, run_waitLines_zero]
    rfl
  case wait =>
    rw [exec_waitus hidle, run_waitLines hn (by simpa using hrst)]
    rfl

end Sys2Proof.Machine

/-! PROOFS. The host's driver operations on a Ready driver. An operation in progress goes on line by line, each request of it
runs to its response, and the last response ends it: said once for any lines, and for any number of byte requests in a row, so
that SetBacklight, SetCursorPosition and Print (R126, R132 to R135) only say which lines they start. -/

namespace Sys2Proof.Machine

/-! ## The words of the requests that an operation issues -/

/-- SENDDATA of the byte if `rs`, else SENDCMD of it (R106, R107). -/
def byteRequest (rs : Bool) (b : Byte) : Instr := if rs then .senddata b else .sendcmd b

/-- R69, R73: the word of SENDCMD or SENDDATA decodes to that request. -/
@[simp] theorem decodeRequest_byteRequest (p : Params) (rs : Bool) (b : Byte) :
    decodeRequest p (encodeRequest (byteRequest rs b)) = byteRequest rs b := by
  have row (op : Byte) : (encodeByteRequest op b).extractLsb' 8 16 = 0#16 ∧ b = (encodeByteRequest op b).extractLsb' 0 8 :=
    ⟨encodeByteRequest_reserved op b, (encodeByteRequest_operand op b).symm⟩
  cases rs with
  | false => exact RequestRow.decodeRequest_eq (i := .sendcmd b) ⟨encodeByteRequest_op _ _, row 0x02#8⟩
  | true => exact RequestRow.decodeRequest_eq (i := .senddata b) ⟨encodeByteRequest_op _ _, row 0x03#8⟩

/-- R70, R73: the word of SETBL decodes to that request. -/
@[simp] theorem decodeRequest_setbl (p : Params) (x : Bool) : decodeRequest p (encodeRequest (.setbl x)) = .setbl x := by
  refine RequestRow.decodeRequest_eq ⟨Laws.RequestOpcode.setbl x, ?_⟩
  cases x <;> decide

/-! ## A request that runs to its response -/

/-- A request given to NTX in `s` has run to the response `st` in `t`, with the events `evs`, and NTX is free again; the
parameters and the host are as they were. -/
structure Responds (s t : State) (st : BitVec 2) (evs : List Event) : Prop where
  free : t.Free
  rspValid : t.ntx.rspValid = true
  rspStatus : t.ntx.rspStatus = st
  trace : t.trace = s.trace ++ evs
  cfg : t.cfg = s.cfg
  drv : t.drv = s.drv
  hostIn : t.hostIn = s.hostIn
  rstSeen : t.rstSeen = s.rstSeen

/-- SENDCMD or SENDDATA with every write answered `ok` (R106, R107). -/
theorem exec_byteRequest_responds {s : State} (hs : s.Free) (rs : Bool) (b : Byte)
    (hb : okAnswers (2 * pulseWrites s.cfg) s.busIn = true) :
    ∃ t, exec (byteRequest rs b) s = .next t ∧ Responds s t statusOk (byteEvents s.cfg s.ntx.bl b rs) ∧
      t.ntx.bl = s.ntx.bl ∧ t.busIn = s.busIn.drop (2 * pulseWrites s.cfg) := by
  obtain ⟨hidle, hrst⟩ := hs
  have hlines : requestLines s.cfg s.ntx.bl (byteRequest rs b) = some (byteLines s.cfg s.ntx.bl b rs) := by cases rs <;> rfl
  have hprep (w : Word) : prepared (byteRequest rs b) (accept w s) = beginPulse (.byte b rs) (accept w s) := by
    cases rs <;> rfl
  rw [exec_idle hidle, hlines]
  dsimp only
  rw [hprep, run_byteLines (by simp) (by simpa using hrst) (by simpa using hb)]
  refine ⟨_, rfl, ⟨⟨rfl, hrst⟩, rfl, rfl, ?trace, rfl, rfl, rfl, rfl⟩, rfl, ?busIn⟩
  case trace => simp [afterPulse, byteEvents]
  case busIn => simp [afterPulse, two_mul]

/-- SETBL with any answer to its write: `BL` has the new value, and the response tells how the write went (R97, R98, R140). -/
theorem exec_setbl_responds {s : State} (hs : s.Free) (x : Bool) {a : BusAnswer} {as : List BusAnswer}
    (hb : s.busIn = a :: as) :
    ∃ t, exec (.setbl x) s = .next t ∧
      Responds s t (if a.wrOk then statusOk else statusBusError) [.write (backlightByte s.cfg x) (busResult a)] ∧
      t.ntx.req = encodeRequest (.setbl x) ∧ t.ntx.bl = x ∧ (a.wrOk = false → t.ntx.rspInfo = a.wrErr) := by
  obtain ⟨hidle, hrst⟩ := hs
  refine ⟨_, exec_idle hidle (.setbl x), ?_⟩
  dsimp only [requestLines]
  cases ha : a.wrOk with
  | false =>
    rw [run_write_err (by simpa using hrst) (by simpa using hb) ha]
    exact ⟨⟨⟨rfl, by simpa using hrst⟩, rfl, rfl, by simp [busResult, ha], rfl, rfl, rfl, rfl⟩, rfl, rfl, fun _ => rfl⟩
  | true =>
    rw [run_write_ok (by simpa using hrst) (by simpa using hb) ha]
    exact ⟨⟨⟨rfl, by simpa using hrst⟩, rfl, rfl, by simp [busResult, ha], rfl, rfl, rfl, rfl⟩, rfl, rfl, nofun⟩

/-! ## An operation in progress -/

/-- The host goes on with an operation that has the lines `todo` left: no response is awaited, or it is there and OK (R118). -/
structure State.Continues (s : State) (todo : List HostLine) : Prop where
  free : s.Free
  rstSeen : s.rstSeen = false
  job : ∃ aw, s.drv.job = some { todo := todo, awaiting := aw } ∧
    (aw = false ∨ s.ntx.rspValid = true ∧ s.ntx.rspStatus = statusOk)

/-- The driver when an operation has ended well (R119). -/
def Driver.finished (d : Driver) : Driver :=
  { d with life := if d.life = .initializing then .ready else d.life, job := none, result := .ok }

/-- The driver when an operation has ended in an error response (R118, R125). -/
def Driver.failed (d : Driver) (status : BitVec 2) (info : BusErr) : Driver :=
  { d with life := if d.life = .initializing then .failed else d.life, job := none, result := .failed status info }

/-- The driver with an operation in progress. -/
def Driver.busy (d : Driver) (todo : List HostLine) (awaiting : Bool) : Driver :=
  { d with job := some { todo := todo, awaiting := awaiting } }

@[simp] theorem Driver.busy_finished (d : Driver) (todo : List HostLine) (aw : Bool) :
    (d.busy todo aw).finished = d.finished := rfl

@[simp] theorem Driver.busy_failed (d : Driver) (todo : List HostLine) (aw : Bool) (status : BitVec 2) (info : BusErr) :
    (d.busy todo aw).failed status info = d.failed status info := rfl

/-- An operation of a Ready driver that has ended well leaves its result only. -/
theorem Driver.finished_ready {d : Driver} (hlife : d.life = .ready) (hjob : d.job = none) :
    d.finished = { d with result := .ok } := by
  simp [Driver.finished, hlife, hjob]

/-- An operation of a Ready driver that has ended in an error leaves its result only. -/
theorem Driver.failed_ready {d : Driver} (hlife : d.life = .ready) (hjob : d.job = none) (status : BitVec 2) (info : BusErr) :
    d.failed status info = { d with result := .failed status info } := by
  simp [Driver.failed, hlife, hjob]

section Operation

variable {s t : State} {todo rest : List HostLine}

/-- The host's turn is the next line of the operation. -/
theorem State.Continues.step_eq (h : s.Continues todo) : step s = runTurn (continueJob todo s) := by
  obtain ⟨⟨hidle, hrst⟩, hseen, aw, hjob, haw⟩ := h
  rw [step_hostsTurn ⟨hidle, by simp [hrst], hseen⟩, hjob, tick_none hrst]
  cases aw with
  | false => rfl
  | true =>
    obtain ⟨hvalid, hstatus⟩ := haw.resolve_left nofun
    simp [hvalid, readResponse, rspStatusPort, hstatus]

/-- With no line left the operation is over (R119). -/
theorem State.Continues.step_nil (h : s.Continues []) : step s = .next { s with drv := s.drv.finished } := h.step_eq

/-- The next request is executed, and its response is then awaited (R118). -/
theorem State.Continues.step_issue {i : Instr} (hi : decodeRequest s.cfg (encodeRequest i) = i)
    (h : s.Continues (issueLine i :: rest)) : step s = exec i { s with drv := s.drv.busy rest true } := by
  have hrun : step s = exec (decodeRequest s.cfg (encodeRequest i)) { s with drv := s.drv.busy rest true } := h.step_eq
  rwa [hi] at hrun

/-- After an OK response the operation goes on with the lines it has left. -/
theorem Responds.continues {st : BitVec 2} {evs : List Event} (h : Responds s t st evs) (hst : st = statusOk)
    (hseen : s.rstSeen = false) (hjob : s.drv.job = some { todo := rest, awaiting := true }) : t.Continues rest :=
  ⟨h.free, h.rstSeen.trans hseen, true, h.drv ▸ hjob, .inr ⟨h.rspValid, h.rspStatus.trans hst⟩⟩

/-- A bus error ends the operation, whatever it has left to do, and is passed on (R118). -/
theorem Responds.step_busError {st : BitVec 2} {evs : List Event} (h : Responds s t st evs) (hst : st = statusBusError)
    (hseen : s.rstSeen = false) (hjob : s.drv.job = some { todo := rest, awaiting := true }) :
    step t = .next { t with drv := t.drv.failed statusBusError t.ntx.rspInfo } := by
  obtain ⟨hidle, hrst⟩ := h.free
  have hstatus : t.ntx.rspStatus = statusBusError := h.rspStatus.trans hst
  have hread : readResponse rest t = .act { t with drv := t.drv.failed statusBusError t.ntx.rspInfo } := by
    simp [readResponse, rspStatusPort, hstatus, statusBusError, statusOk, failJob, rspInfoPort, Driver.failed]
  rw [step_hostsTurn ⟨hidle, by simp [hrst], h.rstSeen.trans hseen⟩, show t.drv.job = _ from h.drv ▸ hjob, tick_none hrst]
  simp [h.rspValid, hread, runTurn]

end Operation

/-- The run goes on from the state that the first step gives. -/
theorem run_succ_of_step {s t : State} (h : step s = .next t) (k : Nat) :
    Host.Core.run core (k + 1) s = Host.Core.run core k t := by
  simp only [Host.Core.run, show core.step s = .next t from h]

/-- An operation that has only byte requests left, with every write answered `ok`, makes their events in order and ends well. -/
theorem State.Continues.run_byteRequests {rs : Bool} {bs : List Byte} {s : State}
    (hs : s.Continues (bs.map fun b => issueLine (byteRequest rs b)))
    (hb : okAnswers (2 * pulseWrites s.cfg * bs.length) s.busIn = true) :
    ∃ t, Host.Core.run core (bs.length + 1) s = .next t ∧ t.drv = s.drv.finished ∧
      t.trace = s.trace ++ bs.flatMap fun b => byteEvents s.cfg s.ntx.bl b rs := by
  induction bs generalizing s with
  | nil => exact ⟨_, run_succ_of_step hs.step_nil 0, rfl, by simp⟩
  | cons b bs ih =>
    have hcount : 2 * pulseWrites s.cfg * (b :: bs).length = 2 * pulseWrites s.cfg + 2 * pulseWrites s.cfg * bs.length := by
      rw [List.length_cons]
      ring
    rw [hcount] at hb
    obtain ⟨u, hexec, hu, hbl, hbus⟩ := exec_byteRequest_responds
      (s := { s with drv := s.drv.busy (bs.map fun b => issueLine (byteRequest rs b)) true })
      hs.free rs b (okAnswers_mono (Nat.le_add_right _ _) hb)
    have hstep : step s = .next u := (hs.step_issue (decodeRequest_byteRequest _ rs b)).trans hexec
    obtain ⟨t, hrun, hdrv, htrace⟩ := ih (s := u) (hu.continues rfl hs.rstSeen rfl)
      (by simpa [hu.cfg, hbus] using okAnswers_drop hb)
    refine ⟨t, (run_succ_of_step hstep _).trans hrun, ?_, ?_⟩
    · rw [hdrv, hu.drv, Driver.busy_finished]
    · simp [htrace, hu.trace, hu.cfg, hbl]

/-! ## The start of an operation -/

/-- The state once the host has taken up an operation: the flags of `d` written, the lines still to do (R126, R128). -/
def started (lines : List HostLine) (d : Driver) (s : State) : State :=
  { s with hostIn := s.hostIn.tail, drv := d.busy lines false }

section Start

variable {s : State} {o : DriverOp}

theorem State.Asked.ready (h : s.Asked o) : s.drv.life = .ready := by
  obtain ⟨-, hlife, -⟩ := h
  exact hlife

/-- A Ready driver takes up the operation that it is asked to run (R119). -/
theorem State.Asked.step_eq (h : s.Asked o) : step s = runTurn (startOp o { s with hostIn := s.hostIn.tail }) := by
  obtain ⟨⟨⟨hidle, hrst⟩, hseen, hjob⟩, -, hin⟩ := h
  obtain ⟨rest, hrest⟩ := List.head?_eq_some_iff.mp hin
  rw [step_hostsTurn ⟨hidle, by simp [hrst], hseen⟩, hjob, tick_none hrst]
  simp [takeInput, hrest]

theorem State.Asked.started_continues (h : s.Asked o) (lines : List HostLine) (d : Driver) :
    (started lines d s).Continues lines := by
  obtain ⟨⟨hfree, hseen, -⟩, -, -⟩ := h
  exact ⟨hfree, hseen, false, rfl, .inl rfl⟩

theorem State.Asked.finished_eq (h : s.Asked o) : s.drv.finished = { s.drv with result := .ok } := by
  obtain ⟨⟨-, -, hjob⟩, hlife, -⟩ := h
  exact Driver.finished_ready hlife hjob

/-- SetBacklight writes its flag, and has one SETBL to do (R126). -/
theorem step_setBacklight {x : Bool} (h : s.Asked (.setBacklight x)) :
    step s = .next (started [issueLine (.setbl x)] { s.drv with backlight := x } s) := by
  rw [h.step_eq, startOp, if_pos h.ready]
  rfl

theorem step_setCursorPosition {col row : Int} (h : s.Asked (.setCursorPosition col row)) :
    step s = runTurn (setCursorPosition col row { s with hostIn := s.hostIn.tail }) := by
  rw [h.step_eq, startOp, if_pos h.ready]

theorem step_print {text : List Nat} (h : s.Asked (.print text)) :
    step s = runTurn (print text { s with hostIn := s.hostIn.tail }) := by
  rw [h.step_eq, startOp, if_pos h.ready]

/-- A Ready driver whose operation comes to byte requests, with every write answered `ok`: one step takes it up, and the
requests and the last response follow. -/
theorem State.Asked.run_byteRequests {rs : Bool} {bs : List Byte} (h : s.Asked o)
    (hstep : step s = .next (started (bs.map fun b => issueLine (byteRequest rs b)) s.drv s))
    (hb : okAnswers (2 * pulseWrites s.cfg * bs.length) s.busIn = true) :
    ∃ t, Host.Core.run core (bs.length + 2) s = .next t ∧ t.drv = { s.drv with result := .ok } ∧
      t.trace = s.trace ++ bs.flatMap fun b => byteEvents s.cfg s.ntx.bl b rs := by
  obtain ⟨t, hrun, hdrv, htrace⟩ := (h.started_continues _ s.drv).run_byteRequests hb
  exact ⟨t, (run_succ_of_step hstep _).trans hrun, hdrv.trans h.finished_eq, htrace⟩

end Start

/-! ## SetBacklight (R126) -/

/-- An operation that has only a SETBL left makes its one write, and ends as that write is answered. -/
theorem State.Continues.run_setbl {s : State} {x : Bool} {a : BusAnswer} {as : List BusAnswer}
    (h : s.Continues [issueLine (.setbl x)]) (hb : s.busIn = a :: as) :
    ∃ t, Host.Core.run core 2 s = .next t ∧ t.trace = s.trace ++ [.write (backlightByte s.cfg x) (busResult a)] ∧
      t.ntx.req = encodeRequest (.setbl x) ∧ t.ntx.bl = x ∧ t.hostIn = s.hostIn ∧
      t.drv = if a.wrOk then s.drv.finished else s.drv.failed statusBusError a.wrErr := by
  obtain ⟨u, hexec, hu, hreq, hbl, hinfo⟩ := exec_setbl_responds (s := { s with drv := s.drv.busy [] true }) h.free x hb
  have hissue : step s = .next u := (h.step_issue (decodeRequest_setbl _ x)).trans hexec
  have hend : step u = .next
      { u with drv := if a.wrOk then s.drv.finished else s.drv.failed statusBusError a.wrErr } := by
    cases ha : a.wrOk with
    | false => simp [hu.step_busError (by simp [ha]) h.rstSeen rfl, hu.drv, hinfo ha]
    | true => simp [(hu.continues (by simp [ha]) h.rstSeen rfl).step_nil, hu.drv]
  exact ⟨_, (run_succ_of_step hissue 1).trans (run_succ_of_step hend 0), hu.trace, hreq, hbl, hu.hostIn, rfl⟩

/-- Settles O51: the flag is written as the operation starts, and what is left is the SETBL, whose answer is the result. -/
theorem setBacklightWritesOnce : Obligations.SetBacklightWritesOnce := by
  unfold Obligations.SetBacklightWritesOnce
  intro s x a as hs hb
  have hcont := hs.started_continues [issueLine (.setbl x)] { s.drv with backlight := x }
  obtain ⟨t, hrun, htrace, hreq, hbl, hin, hdrv⟩ := hcont.run_setbl hb
  refine ⟨t, (run_succ_of_step (step_setBacklight hs) 2).trans hrun, htrace, hreq, hbl, hin, hdrv.trans ?_⟩
  obtain ⟨⟨-, -, hjob⟩, hlife, -⟩ := hs
  cases a.wrOk with
  | false => exact Driver.failed_ready (d := { s.drv with backlight := x }) hlife hjob statusBusError a.wrErr
  | true => exact Driver.finished_ready (d := { s.drv with backlight := x }) hlife hjob

/-! ## SetCursorPosition (R132, R133) -/

/-- R30: the base of each row of the table. -/
theorem rowBase_fin : ∀ row : Fin 4, rowBase (row.val : Int) = some ([0x00, 0x40, 0x14, 0x54].getD row.val 0) := by
  decide

/-- The table's bases, read as integers. -/
theorem rowBase_cast : ∀ row : Fin 4,
    (([0x00, 0x40, 0x14, 0x54].getD row.val 0 : Nat) : Int) = [0x00, 0x40, 0x14, 0x54].getD row.val 0 := by
  decide

theorem rowBase_outside {row : Int} (h : row < 0 ∨ 4 ≤ row) : rowBase row = none := by
  cases row with
  | ofNat n =>
    have hn : (n : Int) < 0 ∨ 4 ≤ (n : Int) := h
    exact List.getElem?_eq_none (show 4 ≤ n by omega)
  | negSucc n => rfl

/-- R133: the bit that makes a 7-bit address a SetDDRamAddr byte is the sum `0x80 + address`. -/
theorem setAddressByte_eq {a : Nat} (h : a ≤ 0x7F) : 0x80#8 ||| BitVec.ofNat 8 a = BitVec.ofNat 8 (0x80 + a) := by
  apply BitVec.eq_of_toNat_eq
  have hor : 128 + a = 128 ||| a := Nat.two_pow_add_eq_or_of_lt (i := 7) (by omega) 1
  simp [Nat.mod_eq_of_lt (show a < 256 by omega), hor]

section SetCursorPosition

variable {s : State} {col row : Int} {base : Nat}

/-- A row outside the table is the fault, whatever the column (R132). -/
theorem setCursorPosition_noRow (hrow : rowBase row = none) : setCursorPosition col row s = .fault (.rowIndex row) := by
  simp [setCursorPosition, hrow]

/-- A column of the domain is the one SENDCMD of its address (R133). -/
theorem setCursorPosition_inside (hrow : rowBase row = some base) (hcol : 0 ≤ col ∧ base + col ≤ 0x7F) :
    setCursorPosition col row s =
      startJob ([BitVec.ofNat 8 (0x80 + base + col.toNat)].map fun b => issueLine (byteRequest false b)) s.drv s := by
  have haddr : 0x80#8 ||| BitVec.ofNat 8 (base + col.toNat) = BitVec.ofNat 8 (0x80 + base + col.toNat) := by
    rw [setAddressByte_eq (by omega), Nat.add_assoc]
  simp [setCursorPosition, hrow, hcol, haddr, byteRequest]

/-- A column outside the domain is refused (R133). -/
theorem setCursorPosition_outside (hrow : rowBase row = some base) (hcol : ¬ (0 ≤ col ∧ base + col ≤ 0x7F)) :
    setCursorPosition col row s = .refuse (.columnOutsideDomain col row) := by
  simp only [setCursorPosition, hrow, if_neg hcol]

end SetCursorPosition

/-- Settles O55: a row that the table does not have has no base, and the fault comes before the column is looked at. -/
theorem rowOutsideTableFails : Obligations.RowOutsideTableFails := by
  unfold Obligations.RowOutsideTableFails
  intro s col row hs hrow
  rw [step_setCursorPosition hs, setCursorPosition_noRow (rowBase_outside hrow)]
  rfl

/-- Settles O56: inside the domain the operation is one SENDCMD, of the address byte; outside it, its start is refused. -/
theorem cursorPositionSendsAddress : Obligations.CursorPositionSendsAddress := by
  unfold Obligations.CursorPositionSendsAddress
  intro s col row hs
  have hstep := step_setCursorPosition hs
  rw [← rowBase_cast row]
  refine ⟨fun hcol hb => ?inside, fun hcol => ?outside⟩
  case inside =>
    rw [setCursorPosition_inside (rowBase_fin row) hcol] at hstep
    simpa using hs.run_byteRequests hstep (by simpa using hb)
  case outside =>
    rw [setCursorPosition_outside (rowBase_fin row) hcol] at hstep
    exact hstep

/-! ## Print (R135) -/

/-- A 7-bit text is one SENDDATA a character. -/
theorem print_sevenBit {text : List Nat} (h : ∀ c ∈ text, c < 0x80) (s : State) :
    print text s =
      startJob ((text.map (BitVec.ofNat 8)).map fun b => issueLine (byteRequest true b)) s.drv s := by
  rw [print, if_pos (by simpa using h), List.map_map]
  rfl

/-- A text with any other character is refused. -/
theorem print_notSevenBit {text : List Nat} (h : ∃ c ∈ text, 0x80 ≤ c) (s : State) :
    print text s = .refuse .textNotSevenBit := by
  rw [print, if_neg (by simpa using h)]

/-- Settles O57: a 7-bit text of any length is that many byte requests; the check of the text comes before them. -/
theorem printSendsEveryCharacter : Obligations.PrintSendsEveryCharacter := by
  unfold Obligations.PrintSendsEveryCharacter
  intro s text hs
  have hstep := step_print hs
  refine ⟨fun htext hb => ?sevenBit, fun htext => ?other⟩
  case sevenBit =>
    rw [print_sevenBit htext] at hstep
    simpa [List.flatMap_map] using hs.run_byteRequests hstep (by simpa using hb)
  case other =>
    rw [print_notSevenBit htext] at hstep
    exact hstep

end Sys2Proof.Machine

/-! PROOFS. The two ends of a request that no bus answer decides: ILLEGAL, which only responds (R141), and the write that the bus
does not answer, from which only a reset leads (R145, R158). -/

namespace Sys2Proof.Machine

/-! ## ILLEGAL (R141) -/

/-- An ILLEGAL word in IDLE is accepted, has no lines to run, and only responds. -/
theorem exec_illegal {s : State} (hidle : s.ntx.fsm = .idle) (w : Word) :
    exec (.illegal w) s = .next (raiseIllegal (accept w s)) :=
  exec_idle hidle (.illegal w)

/-- Settles O25: the request is accepted, and `raiseIllegal` writes the response only. -/
theorem illegalOnlyResponds : Obligations.IllegalOnlyResponds := by
  unfold Obligations.IllegalOnlyResponds
  intro s w ⟨hidle, _⟩
  rw [exec_illegal hidle]
  rfl

/-! ## A write that the bus does not answer (R145) -/

/-- In BUSY the invariant names the write that is outstanding, with which the lines still to run begin (R64). -/
theorem State.Inv.outstandingWrite {s : State} (h : s.Inv) (hbusy : s.ntx.fsm = .busy) :
    ∃ v ls, s.ntx.busWr = some v ∧ s.ntx.todo = .write v :: ls := by
  obtain ⟨-, hsome, hhead⟩ := h.busy hbusy
  obtain ⟨v, hv⟩ := Option.isSome_iff_exists.mp hsome
  rw [hv] at hhead
  obtain ⟨ls, hls⟩ := List.head?_eq_some_iff.mp hhead
  exact ⟨v, ls, hv, hls⟩

/-- To wait for the write that is outstanding already, with the same lines to run, changes nothing. -/
theorem awaitBus_outstanding {s : State} {v : Byte} (hv : s.ntx.busWr = some v) : awaitBus v s.ntx.todo s = s := by
  rw [awaitBus, ← hv]

/-- A look for an answer that has not come leaves the state as it is (R145). -/
theorem resume_unanswered {s : State} (h : s.Inv) (hbusy : s.ntx.fsm = .busy) (hbus : s.busIn = []) (hrst : s.rstIn = []) :
    resume s = s := by
  obtain ⟨v, ls, hv, hls⟩ := h.outstandingWrite hbusy
  rw [resume, hls, run_write_wait hrst hbus, ← hls, awaitBus_outstanding hv]

/-- With no answer and no reset to come, a step leaves a BUSY NTX, and all around it, as they are (R145). -/
theorem step_unanswered {s : State} (h : s.Inv) (hbusy : s.ntx.fsm = .busy) (hbus : s.busIn = []) (hrst : s.rstIn = []) :
    step s = .next s := by
  rw [step_noReset (by simp [hrst]), hbusy]
  exact congrArg Host.Outcome.next (resume_unanswered h hbusy hbus hrst)

/-- A state that a step leaves as it is, any number of steps leaves as it is. -/
theorem run_of_step_self {s : State} (h : step s = .next s) (k : Nat) : Host.Core.run core k s = .next s := by
  induction k with
  | zero => rfl
  | succ k ih => exact (run_succ_of_step h k).trans ih

/-- Settles O37: the step with no answer is a fixed point; the reset brings the reset values of NTX, IDLE and no response. -/
theorem unansweredWriteHangs : Obligations.UnansweredWriteHangs := by
  unfold Obligations.UnansweredWriteHangs
  intro s hinv hbusy
  exact ⟨fun hbus hrst => run_of_step_self (step_unanswered hinv hbusy hbus hrst),
    fun hdue => ⟨resetNtx s, step_reset hdue, rfl, rfl⟩⟩

end Sys2Proof.Machine

/-! PROOFS. Decoding and encoding are inverse to each other, for request words (R66 to R73) and command bytes (R76 to R79); and the
assembler emits nothing but well-formed requests (R80, R81). -/

namespace Sys2Proof

/-! ## Command bytes (R76 to R79) -/

/-- The byte of a command decodes to that command: the row's highest set bit names it, and the operand bits follow. -/
theorem decodeCommand_of_encodeCommand {i : Instr} {b : Byte} (h : encodeCommand i = some b) :
    decodeCommand b = .instr i := by
  cases i with
  | clearDisplay => obtain rfl := Option.some.inj h; rfl
  | returnHome => obtain rfl := Option.some.inj h; rfl
  | entryModeSet id s => obtain rfl := Option.some.inj h; revert id s; decide
  | displayControl d c k => obtain rfl := Option.some.inj h; revert d c k; decide
  | cursorShift x => obtain rfl := Option.some.inj h; revert x; decide
  | functionSet dl n f low => obtain rfl := Option.some.inj h; revert dl n f low; decide
  | setCGRamAddr a => obtain rfl := Option.some.inj h; revert a; decide
  | setDDRamAddr a => obtain rfl := Option.some.inj h; revert a; decide
  | _ => cases h

/-- Each of the 256 bytes that has a name is the byte of the command it names. -/
theorem encodeCommand_of_decodeCommand {i : Instr} {b : Byte} (h : decodeCommand b = .instr i) :
    encodeCommand i = some b := by
  have all : ∀ b : Byte, (match decodeCommand b with
    | .instr i => encodeCommand i
    | .noRow _ => some b) = some b := by decide
  simpa [h] using all b


/-! ## Request words (R66 to R73) -/

/-- Two adjacent fields of a word, read in one go. -/
theorem extractLsb'_eq_append_iff {n k l m : Nat} (w : BitVec n) (a : BitVec m) (b : BitVec l) :
    w.extractLsb' k (m + l) = a ++ b ↔ w.extractLsb' (k + l) m = a ∧ w.extractLsb' k l = b := by
  rw [← BitVec.extractLsb'_append_extractLsb'_eq_extractLsb' (x := w) rfl]
  constructor
  · intro h
    constructor
    · simpa [BitVec.extractLsb'_append_eq_left] using congrArg (BitVec.extractLsb' l m) h
    · simpa [BitVec.extractLsb'_append_eq_right] using congrArg (BitVec.extractLsb' 0 l) h
  · rintro ⟨rfl, rfl⟩
    rfl

/-- A word is its opcode and its `ARG` (R66). -/
theorem word_eq_append_iff (w : Word) (op : Byte) (arg : BitVec 24) :
    w = op ++ arg ↔ w.extractLsb' 24 8 = op ∧ w.extractLsb' 0 24 = arg := by
  simpa using extractLsb'_eq_append_iff (k := 0) w op arg

/-- A field of one bit is that bit. -/
theorem extractLsb'_one {n : Nat} (w : BitVec n) (k : Nat) : w.extractLsb' k 1 = BitVec.ofBool (w.getLsbD k) := by
  apply BitVec.eq_of_getLsbD_eq
  intro i hi
  obtain rfl : i = 0 := by omega
  simp

/-- `OP` and the must-be-zero bits of a request with an 8-bit operand, in one field (R68, R69). -/
theorem byteRequest_field (w : Word) (op : Byte) :
    w.extractLsb' 8 24 = op ++ 0#16 ↔ w.extractLsb' 24 8 = op ∧ w.extractLsb' 8 16 = 0#16 :=
  extractLsb'_eq_append_iff w op 0#16

/-- `OP` and the must-be-zero bits of SETBL, in one field (R70). -/
theorem setbl_field (w : Word) (op : Byte) :
    w.extractLsb' 1 31 = op ++ 0#23 ↔ w.extractLsb' 24 8 = op ∧ w.extractLsb' 1 23 = 0#23 :=
  extractLsb'_eq_append_iff w op 0#23

/-- The word of a byte request, from its three fields. -/
theorem encodeByteRequest_fields {w : Word} {op : Byte} (hop : w.extractLsb' 24 8 = op) (hzero : w.extractLsb' 8 16 = 0#16) :
    encodeByteRequest op (w.extractLsb' 0 8) = w := by
  refine ((word_eq_append_iff w _ _).mpr ⟨hop, ?_⟩).symm
  exact (extractLsb'_eq_append_iff w 0#16 (w.extractLsb' 0 8)).mpr ⟨hzero, rfl⟩

/-- R90: the operand's control bits are bits of the word. -/
theorem controlClear_operand (p : Params) (w : Word) :
    WellFormed.controlClear p (w.extractLsb' 0 8) = true ↔ w.getLsbD p.eBit.val = false ∧ w.getLsbD p.rwBit.val = false := by
  have he := p.eBit.isLt
  have hrw := p.rwBit.isLt
  simp [WellFormed.controlClear, show p.eBit.val < 8 by omega, show p.rwBit.val < 8 by omega]

theorem waitFits_iff (p : Params) (n : BitVec 24) : WellFormed.waitFits p n = true ↔ n.toNat < 2 ^ p.waitBits := by
  simp [WellFormed.waitFits]

/-- R72: the words that belong to a request are those of the five conditions of R73. -/
theorem legalRequest_iff (p : Params) (w : Word) :
    WellFormed.legalRequest p w = true ↔
      (w.extractLsb' 24 8 = 0x01#8 ∧ w.extractLsb' 8 16 = 0#16 ∧ w.getLsbD p.eBit.val = false ∧
        w.getLsbD p.rwBit.val = false) ∨
      (w.extractLsb' 24 8 = 0x02#8 ∧ w.extractLsb' 8 16 = 0#16) ∨
      (w.extractLsb' 24 8 = 0x03#8 ∧ w.extractLsb' 8 16 = 0#16) ∨
      (w.extractLsb' 24 8 = 0x04#8 ∧ w.extractLsb' 1 23 = 0#23) ∨
      (w.extractLsb' 24 8 = 0x05#8 ∧ (w.extractLsb' 0 24).toNat < 2 ^ p.waitBits) := by
  simp only [WellFormed.legalRequest, Bool.or_eq_true, Bool.and_eq_true, beq_iff_eq, controlClear_operand, waitFits_iff,
    show 0x010000#24 = 0x01#8 ++ 0#16 from rfl, show 0x020000#24 = 0x02#8 ++ 0#16 from rfl,
    show 0x030000#24 = 0x03#8 ++ 0#16 from rfl, show 0x02000000#31 = 0x04#8 ++ 0#23 from rfl, byteRequest_field, setbl_field,
    or_assoc, and_assoc]

/-- A word is ILLEGAL's own exactly where ILLEGAL of it is well-formed. -/
theorem requestRow_illegal_iff (p : Params) (w : Word) :
    RequestRow p w (.illegal w) ↔ WellFormed p (.illegal w) = true := by
  simp only [WellFormed, Bool.not_eq_true', ← Bool.not_eq_true, legalRequest_iff, RequestRow, not_or, true_and]

/-- The word of a well-formed request is of the request's row. -/
theorem requestRow_encodeRequest {p : Params} {i : Instr} (hc : encodeCommand i = none) (hw : WellFormed p i = true) :
    RequestRow p (encodeRequest i) i := by
  cases i with
  | wrnib v =>
    have hop : (encodeByteRequest 0x01#8 v).extractLsb' 0 8 = v := encodeByteRequest_operand _ v
    have hclear := (controlClear_operand p (encodeByteRequest 0x01#8 v)).mp (by rwa [hop])
    exact ⟨encodeByteRequest_op _ v, encodeByteRequest_reserved _ v, hclear.1, hclear.2, hop.symm⟩
  | sendcmd b =>
    exact ⟨encodeByteRequest_op _ b, encodeByteRequest_reserved _ b, (encodeByteRequest_operand _ b).symm⟩
  | senddata b =>
    exact ⟨encodeByteRequest_op _ b, encodeByteRequest_reserved _ b, (encodeByteRequest_operand _ b).symm⟩
  | setbl x =>
    refine ⟨Laws.RequestOpcode.setbl x, ?_⟩
    cases x <;> decide
  | waitus n => exact Machine.requestRow_waitus ((waitFits_iff p n).mp hw)
  | illegal w => exact (requestRow_illegal_iff p w).mpr hw
  | _ => cases hc

/-- A word of an instruction's row is that instruction's own, and the instruction is a well-formed request. -/
theorem RequestRow.encode_eq {p : Params} {w : Word} {i : Instr} (h : RequestRow p w i) :
    encode i = .request w ∧ WellFormed p i = true := by
  cases i with
  | wrnib v =>
    obtain ⟨hop, hzero, he, hrw, rfl⟩ := h
    exact ⟨congrArg Code.request (encodeByteRequest_fields hop hzero), (controlClear_operand p w).mpr ⟨he, hrw⟩⟩
  | sendcmd b =>
    obtain ⟨hop, hzero, rfl⟩ := h
    exact ⟨congrArg Code.request (encodeByteRequest_fields hop hzero), rfl⟩
  | senddata b =>
    obtain ⟨hop, hzero, rfl⟩ := h
    exact ⟨congrArg Code.request (encodeByteRequest_fields hop hzero), rfl⟩
  | setbl x =>
    obtain ⟨hop, hzero, rfl⟩ := h
    have harg : w.extractLsb' 0 24 = 0#23 ++ BitVec.ofBool (w.getLsbD 0) :=
      (extractLsb'_eq_append_iff w 0#23 _).mpr ⟨hzero, extractLsb'_one w 0⟩
    exact ⟨congrArg Code.request ((word_eq_append_iff w _ _).mpr ⟨hop, harg⟩).symm, rfl⟩
  | waitus n =>
    obtain ⟨hop, hfits, rfl⟩ := h
    exact ⟨congrArg Code.request ((word_eq_append_iff w _ _).mpr ⟨hop, rfl⟩).symm, (waitFits_iff p _).mpr hfits⟩
  | illegal u =>
    obtain rfl : u = w := h.1
    exact ⟨rfl, (requestRow_illegal_iff p u).mp h⟩
  | _ => exact h.elim

/-- The command bytes have no condition on their operands. -/
theorem wellFormed_of_encodeCommand {i : Instr} {b : Byte} (h : encodeCommand i = some b) (p : Params) :
    WellFormed p i = true := by
  cases i with
  | wrnib v => cases h
  | waitus n => cases h
  | illegal w => cases h
  | _ => rfl

/-- Settles O5: a command's byte decodes to the command, and a request's word is of the request's row. -/
theorem decodeEncode : Obligations.DecodeEncode := by
  unfold Obligations.DecodeEncode
  intro p i hw
  unfold encode
  cases hc : encodeCommand i with
  | some b => exact decodeCommand_of_encodeCommand hc
  | none => exact congrArg Decoded.instr (requestRow_encodeRequest hc hw).decodeRequest_eq

/-- Settles O6: a word is of the row of what it decodes to, and a byte is the byte of the command that it names. -/
theorem encodeDecode : Obligations.EncodeDecode := by
  unfold Obligations.EncodeDecode
  intro p c i h
  cases c with
  | request w => exact ((decodeRequest_eq_iff p w i).mp (Decoded.instr.inj h)).encode_eq
  | command b =>
    have hb := encodeCommand_of_decodeCommand h
    exact ⟨by simp only [encode, hb], wellFormed_of_encodeCommand hb p⟩

/-- A byte decodes to a command exactly where it is the command's byte. -/
theorem decodeCommand_eq_iff (b : Byte) (i : Instr) : decodeCommand b = .instr i ↔ encodeCommand i = some b :=
  ⟨encodeCommand_of_decodeCommand, decodeCommand_of_encodeCommand⟩

/-- The codes that begin with `c` are those whose first field is `c`. -/
theorem exists_append_eq_iff {m l : Nat} (c : BitVec m) (b : BitVec (m + l)) :
    (∃ x : BitVec l, c ++ x = b) ↔ b.extractLsb' l m = c := by
  constructor
  · rintro ⟨x, rfl⟩
    exact BitVec.extractLsb'_append_eq_left
  · intro h
    refine ⟨b.extractLsb' 0 l, ?_⟩
    have hb := (extractLsb'_eq_append_iff (k := 0) b c (b.extractLsb' 0 l)).mpr ⟨by simpa using h, rfl⟩
    rw [← hb, BitVec.extractLsb'_eq_self]

/-- Settles O8: each row is the bytes of its command, and these are the bytes of its match and mask. -/
theorem commandBytesByMask : Obligations.CommandBytesByMask := by
  unfold Obligations.CommandBytesByMask
  simp only [decodeCommand_eq_iff, encodeCommand, Option.some.injEq]
  intro b
  refine ⟨eq_comm, eq_comm, ?_, ?_, ?_, ?_, ?_, ?_, ?_⟩
  · revert b; decide
  · revert b; decide
  · rw [exists_append_eq_iff]; revert b; decide
  · constructor
    · rintro ⟨dl, n, f, low, rfl⟩
      revert dl n f low
      decide
    · intro h
      refine ⟨b.getLsbD 4, b.getLsbD 3, b.getLsbD 2, b.extractLsb' 0 2, ?_⟩
      revert b
      decide
  · rw [exists_append_eq_iff]; revert b; decide
  · rw [exists_append_eq_iff]; revert b; decide
  · revert b; decide

/-- Settles O9: nine words, decoded. -/
theorem sampleWordsDecode : Obligations.SampleWordsDecode := by
  unfold Obligations.SampleWordsDecode
  decide

end Sys2Proof

namespace Sys2Proof.Machine

/-! ## The assembler (R80, R81) -/

/-- A request that the assembler may emit: well-formed, no bare command byte, and not ILLEGAL. -/
structure EmittedLegally (p : Params) (i : Instr) : Prop where
  wellFormed : WellFormed p i = true
  request : encodeCommand i = none
  notIllegal : ∀ w, i ≠ .illegal w

theorem EmittedLegally.decodeRequest_eq {p : Params} {i : Instr} (h : EmittedLegally p i) :
    decodeRequest p (encodeRequest i) = i :=
  (requestRow_encodeRequest h.request h.wellFormed).decodeRequest_eq

theorem sendcmd_emittedLegally (p : Params) (b : Byte) : EmittedLegally p (.sendcmd b) := ⟨rfl, rfl, nofun⟩

theorem senddata_emittedLegally (p : Params) (b : Byte) : EmittedLegally p (.senddata b) := ⟨rfl, rfl, nofun⟩

theorem setbl_emittedLegally (p : Params) (x : Bool) : EmittedLegally p (.setbl x) := ⟨rfl, rfl, nofun⟩

/-- What a wait assembles to, where it does (R80). -/
theorem assembleWait_legal {p : Params} {n : Nat} {is : List Instr} (h : assembleWait p n = some is) :
    ∀ i ∈ is, EmittedLegally p i := by
  obtain ⟨⟨hbits, harg⟩, rfl⟩ : (n < 2 ^ p.waitBits ∧ n < 2 ^ 24) ∧ [.waitus (BitVec.ofNat 24 n)] = is := by
    simpa [assembleWait] using h
  have hn : (BitVec.ofNat 24 n).toNat = n := Nat.mod_eq_of_lt harg
  simpa using (⟨(waitFits_iff p _).mpr (by rwa [hn]), rfl, nofun⟩ : EmittedLegally p (.waitus (BitVec.ofNat 24 n)))

/-- What a nibble assembles to, where it does (R80). -/
theorem assembleNibble_legal {p : Params} {v : Nat} {is : List Instr} (h : assembleNibble p v = some is) :
    ∀ i ∈ is, EmittedLegally p i := by
  obtain ⟨⟨-, hv⟩, rfl⟩ : (v < 2 ^ 8 ∧ illegalOperand p (BitVec.ofNat 8 v) = false) ∧ [.wrnib (BitVec.ofNat 8 v)] = is := by
    simpa [assembleNibble] using h
  simpa using (⟨(illegalOperand_eq_false_iff p _).mp hv, rfl, nofun⟩ : EmittedLegally p (.wrnib (BitVec.ofNat 8 v)))

/-- A command with its wait is legal where the wait is (R81). -/
theorem commandAndWait_legal {p : Params} {b : Byte} {n : Nat} {is : List Instr}
    (h : (assembleWait p n).map (.sendcmd b :: ·) = some is) : ∀ i ∈ is, EmittedLegally p i := by
  obtain ⟨ws, hws, rfl⟩ := Option.map_eq_some_iff.mp h
  exact List.forall_mem_cons.mpr ⟨sendcmd_emittedLegally p b, assembleWait_legal hws⟩

/-- Whatever the assembler emits for a line is legal. -/
theorem assemble_legal {p : Params} {l : SourceLine} {is : List Instr} (h : assemble p l = some is) :
    ∀ i ∈ is, EmittedLegally p i := by
  cases l with
  | wrnib v => exact assembleNibble_legal h
  | sendcmd b =>
    obtain ⟨-, rfl⟩ : b < 2 ^ 8 ∧ [.sendcmd (BitVec.ofNat 8 b)] = is := by simpa [assemble] using h
    simpa using sendcmd_emittedLegally p _
  | senddata b =>
    obtain ⟨-, rfl⟩ : b < 2 ^ 8 ∧ [.senddata (BitVec.ofNat 8 b)] = is := by simpa [assemble] using h
    simpa using senddata_emittedLegally p _
  | setbl x =>
    obtain ⟨-, rfl⟩ : x < 2 ∧ [.setbl (x == 1)] = is := by simpa [assemble] using h
    simpa using setbl_emittedLegally p _
  | waitus n => exact assembleWait_legal h
  | clear => exact commandAndWait_legal h
  | home => exact commandAndWait_legal h
  | dispctl d c b =>
    obtain rfl := Option.some.inj h
    simpa using sendcmd_emittedLegally p _
  | setddram a =>
    obtain ⟨-, rfl⟩ : a ≤ 0x7F ∧ [.sendcmd (0x80#8 ||| BitVec.ofNat 8 a)] = is := by simpa [assemble] using h
    simpa using sendcmd_emittedLegally p _
  | putc c =>
    obtain ⟨-, rfl⟩ : c ≤ 0x7F ∧ [.senddata (BitVec.ofNat 8 c)] = is := by simpa [assemble] using h
    simpa using senddata_emittedLegally p _
  | sync8 => exact assembleNibble_legal h
  | go4 => exact assembleNibble_legal h
  | waitms m => exact assembleWait_legal h

/-- `WRNIB v` for an operand that fits 8 bits (R80). -/
theorem assembleNibble_toNat (p : Params) (v : Byte) :
    assembleNibble p v.toNat = if WellFormed.controlClear p v then some [.wrnib v] else none := by
  simp [assembleNibble, v.isLt, ← illegalOperand_eq_false_iff]

/-- An operand with D7 to D4 only sets no control bit. -/
theorem assembleNibble_data (p : Params) (n : Nibble) : assembleNibble p (n ++ 0#4).toNat = some [.wrnib (n ++ 0#4)] := by
  have hlow : ∀ (n : Nibble) (k : Fin 4), (n ++ 0#4).getLsbD k.val = false := by decide
  rw [assembleNibble_toNat, if_pos (by simp [WellFormed.controlClear, hlow])]

/-- The 2000 us of Clear and Home fit every width that R8 allows. -/
theorem assembleWait_2000 {p : Params} (hp : p.Wf) : assembleWait p 2000 = some [.waitus 2000#24] := by
  obtain ⟨-, -, -, -, -, -, -, -, hbits, -⟩ := hp
  have hpow : 2 ^ 20 ≤ 2 ^ p.waitBits := Nat.pow_le_pow_right (by omega) hbits
  rw [assembleWait, if_pos (by omega)]

/-- The DisplayControl byte from its three flags, bit by bit or mask by mask (R78, R127). -/
theorem displayControlBits (d c b : Bool) :
    (0b00001#5 ++ (BitVec.ofBool d ++ (BitVec.ofBool c ++ BitVec.ofBool b)) : Byte) =
      0x08#8 ||| (if d then 0x04#8 else 0x00#8) ||| (if c then 0x02#8 else 0x00#8) ||| (if b then 0x01#8 else 0x00#8) := by
  revert d c b
  decide

/-- Settles O10: whatever is emitted is legal, by the cases of the line; and each line's requests are read off `assemble`. -/
theorem assemblerEmitsLegalRequests : Obligations.AssemblerEmitsLegalRequests := by
  unfold Obligations.AssemblerEmitsLegalRequests
  intro p
  refine ⟨fun l is h i hi => ?legal, assembleNibble_toNat p, fun b => ?byte, fun n hn => ?wide, rfl, rfl, fun n hn => ?setbl,
    fun _ => rfl, fun hp => ?clear, fun d c b => ?dispctl, fun _ => rfl,
    fun _ => rfl, assembleNibble_data p 3#4, assembleNibble_data p 2#4, fun _ => rfl⟩
  case legal =>
    have hlegal := assemble_legal h i hi
    exact ⟨hlegal.wellFormed, hlegal.decodeRequest_eq, hlegal.notIllegal⟩
  case byte => simp [assemble, b.isLt]
  case wide => simp [assemble, assembleNibble, show ¬ n < 256 by omega]
  case setbl => simp [assemble, show ¬ n < 2 by omega]
  case dispctl => rw [assemble, displayControlBits]
  case clear => simp [assemble, assembleWait_2000 hp]

/-- Settles O52: the composite is the byte of its three flags. -/
theorem compositeCarriesAllFlags : Obligations.CompositeCarriesAllFlags := by
  unfold Obligations.CompositeCarriesAllFlags
  intro d
  have h := (displayControlBits d.displayOn d.cursorOn d.blinkOn).symm
  exact ⟨h, congrArg some h.symm⟩

end Sys2Proof.Machine

/-! PROOFS. What a step can do, said once, and the invariant of the machine (log 12): a running request keeps it before each of
its lines, so that every end of the request has it. -/

namespace Sys2Proof.Machine

/-! ## What a step and an instruction can do -/

section Cases

variable {s t : State} {i : Instr}

/-- An instruction given to NTX in IDLE responds ILLEGAL, or runs its lines. -/
theorem exec_idle_cases (hidle : s.ntx.fsm = .idle) (h : exec i s = .next t) :
    requestLines s.cfg s.ntx.bl i = none ∧ t = raiseIllegal (accept (encodeRequest i) s) ∨
      ∃ ls, requestLines s.cfg s.ntx.bl i = some ls ∧ t = run ls (prepared i (accept (encodeRequest i) s)) := by
  rw [exec_idle hidle] at h
  cases hls : requestLines s.cfg s.ntx.bl i with
  | none => exact .inl ⟨rfl, by simpa [hls] using h.symm⟩
  | some ls => exact .inr ⟨ls, rfl, by simpa [hls] using h.symm⟩

/-- NTX is given a code: an instruction is executed. -/
theorem runCode_cases {c : Code} (h : runCode c s = .next t) : ∃ i, exec i s = .next t := by
  unfold runCode at h
  split at h <;> exact ⟨_, h⟩

/-- What a step can do: a reset that is due; NTX, BUSY, looks for the bus's answer; the host does something of its own, or
nothing; or it has NTX execute an instruction. -/
theorem step_cases (h : step s = .next t) :
    s.rstIn.head? = some 0 ∧ t = resetNtx s ∨
      s.ntx.fsm = .busy ∧ t = resume s ∨
      s.ntx.fsm = .idle ∧ (∃ d q b, t = { tick s with drv := d, hostIn := q, rstSeen := b }) ∨
      s.ntx.fsm = .idle ∧ ∃ d q i, exec i { tick s with drv := d, hostIn := q } = .next t := by
  by_cases hr : s.rstIn.head? = some 0
  · rw [step_reset hr] at h
    exact .inl ⟨hr, (Host.Outcome.next.inj h).symm⟩
  rw [step_noReset hr] at h
  cases hf : s.ntx.fsm with
  | busy => exact .inr (.inl ⟨rfl, by simpa [hf] using h.symm⟩)
  | idle =>
    simp only [hf] at h
    have honly := hostTurn_hostOnly (tick s)
    cases hT : hostTurn (tick s) with
    | wait u =>
      rw [hT] at h honly
      obtain rfl : u = tick s := honly
      obtain rfl := Host.Outcome.next.inj h
      exact .inr (.inr (.inl ⟨rfl, _, _, _, rfl⟩))
    | act u =>
      rw [hT] at h honly
      obtain ⟨d, q, b, rfl⟩ := honly
      obtain rfl := Host.Outcome.next.inj h
      exact .inr (.inr (.inl ⟨rfl, d, q, b, rfl⟩))
    | give c u =>
      rw [hT] at h honly
      obtain ⟨d, q, rfl⟩ := honly
      obtain ⟨i, hi⟩ := runCode_cases h
      exact .inr (.inr (.inr ⟨rfl, d, q, i, hi⟩))
    | fault f =>
      rw [hT] at h
      cases h
    | refuse r =>
      rw [hT] at h
      cases h

end Cases

/-! ## The lines of a request -/

/-- A pulse starts and ends its own delays. -/
theorem pairedDelays_pulseLines (p : Params) (bl : Bool) (v : Byte) (ls : List Line) :
    pairedDelays (pulseLines p bl v ++ ls) = pairedDelays ls := by
  cases hs : p.settle <;> simp [pulseLines, delayLines, pairedDelays, hs]

theorem delaysLeft_pulseLines (p : Params) (bl : Bool) (v : Byte) (ls : List Line) :
    delaysLeft (pulseLines p bl v ++ ls) = p.tEh + p.tPost + delaysLeft ls := by
  cases hs : p.settle <;> simp [pulseLines, delayLines, delaysLeft, hs, Nat.add_assoc]

theorem pairedDelays_byteLines (p : Params) (bl : Bool) (b : Byte) (rs : Bool) : pairedDelays (byteLines p bl b rs) = true := by
  rw [byteLines, pairedDelays_pulseLines, ← List.append_nil (pulseLines _ _ _), pairedDelays_pulseLines]
  rfl

/-- What instruction `i` runs pairs its delays. -/
theorem requestLines_paired {p : Params} {bl : Bool} {i : Instr} {ls : List Line} (h : requestLines p bl i = some ls) :
    pairedDelays ls = true := by
  cases i with
  | wrnib v =>
    obtain ⟨-, rfl⟩ : illegalOperand p v = false ∧ pulseLines p bl v = ls := by simpa [requestLines] using h
    rw [← List.append_nil (pulseLines _ _ _), pairedDelays_pulseLines]
    rfl
  | setbl x =>
    obtain rfl := Option.some.inj h
    rfl
  | waitus n =>
    obtain rfl := Option.some.inj h
    by_cases hn : n = 0#24 <;> simp [waitLines, hn, delayLines, pairedDelays]
  | illegal w => cases h
  | _ =>
    obtain rfl := Option.some.inj h
    exact pairedDelays_byteLines p bl _ _

/-! ## The invariant within a request -/

/-- The timer runs exactly where the next line is the end of its delay; the delays after that are paired. -/
def timerMatches : Option Nat → List Line → Bool
  | none, ls => pairedDelays ls
  | some _, .endDelay _ :: ls => pairedDelays ls
  | some _, _ => false

/-- What holds within a request, before each line: `ls` are the lines still to run. -/
structure State.Running (ls : List Line) (s : State) : Prop where
  params : s.cfg.Wf
  traceRwLow : s.trace.all (Event.rwLow s.cfg) = true
  linesRwLow : ls.all (Line.rwLow s.cfg) = true
  timed : timerMatches s.ntx.tmr ls = true
  status : s.ntx.rspStatus ≠ 3#2
  fsm : s.ntx.fsm = .busy
  rspValid : s.ntx.rspValid = false
  /-- no write is outstanding but, perhaps, the next line (R64) -/
  busWr : ∀ v, s.ntx.busWr = some v → ls.head? = some (.write v)
  memory : s.rcv.MemOk
  pulse : s.rcv.pulseEnd ≤ s.now + delaysLeft ls

section Invariant

variable {s t : State} {ls : List Line} {v : Byte} {n : Nat}

theorem State.Inv.memOk (h : s.Inv) : s.rcv.MemOk := ⟨h.memory, h.lost⟩

/-- The invariant is about NTX, the receiver, the trace and the time: the host and the resets to come are free. -/
theorem State.Inv.host (h : s.Inv) (d : Driver) (q : List HostInput) (r : List Nat) (b : Bool) :
    State.Inv { s with drv := d, hostIn := q, rstIn := r, rstSeen := b } :=
  { h with }

/-- The end of a delay that has started. -/
theorem timed_endDelay {tmr : Option Nat} (h : timerMatches tmr (.endDelay n :: ls) = true) :
    (∃ k, tmr = some k) ∧ pairedDelays ls = true := by
  cases tmr with
  | none => simp [timerMatches, pairedDelays] at h
  | some k => exact ⟨⟨k, rfl⟩, h⟩

/-- The start of a delay: its end is the next line, and the timer has been idle. -/
theorem timed_startDelay {tmr : Option Nat} (h : timerMatches tmr (.startDelay n :: ls) = true) (k : Nat) :
    timerMatches (some k) ls = true := by
  cases tmr with
  | some _ => simp [timerMatches] at h
  | none =>
    match ls with
    | .endDelay m :: ls =>
      obtain ⟨-, hls⟩ : n = m ∧ pairedDelays ls = true := by simpa [timerMatches, pairedDelays] using h
      exact hls
    | [] => simp [timerMatches, pairedDelays] at h
    | .write v :: _ => simp [timerMatches, pairedDelays] at h
    | .startDelay m :: _ => simp [timerMatches, pairedDelays] at h

/-- At a write the timer is idle. -/
theorem timed_write {tmr : Option Nat} (h : timerMatches tmr (.write v :: ls) = true) : tmr = none ∧ pairedDelays ls = true := by
  cases tmr with
  | none => exact ⟨rfl, h⟩
  | some k => simp [timerMatches] at h

/-- A reset of NTX keeps what the trace and the parameters have (R157, R160). -/
theorem resetNtx_inv (hp : s.cfg.Wf) (ht : s.trace.all (Event.rwLow s.cfg) = true) (hm : s.rcv.MemOk) : (resetNtx s).Inv := by
  have hrcv : (resetNtx s).rcv.MemOk := by
    rw [resetNtx_rcv]
    split
    · exact Receiver.afterNtxReset_memOk _ (Receiver.observeLost_memOk _ _ _)
    · exact Receiver.afterNtxReset_memOk _ hm
  exact {
    params := hp
    traceRwLow := ht
    todoRwLow := rfl
    todoPaired := rfl
    timerIdle := rfl
    status := show (0#2 : BitVec 2) ≠ 3#2 by decide
    idle := fun _ => ⟨rfl, rfl⟩
    busy := nofun
    memory := hrcv.wf
    lost := hrcv.lost
    pulse := Nat.le_add_right _ _ }

/-- A request that ends meets the invariant, with any status but 3, once its writes and its waits are over. -/
theorem respond_inv {st : BitVec 2} (hst : st ≠ 3#2) (hp : s.cfg.Wf) (ht : s.trace.all (Event.rwLow s.cfg) = true)
    (htmr : s.ntx.tmr = none) (hbus : s.ntx.busWr = none) (hm : s.rcv.MemOk) (hpulse : s.rcv.pulseEnd ≤ s.now) :
    (respond st s).Inv where
  params := hp
  traceRwLow := ht
  todoRwLow := rfl
  todoPaired := rfl
  timerIdle := htmr
  status := hst
  idle := fun _ => ⟨rfl, hbus⟩
  busy := nofun
  memory := hm.wf
  lost := hm.lost
  pulse := hpulse

theorem State.Running.done (h : s.Running []) : (respond statusOk s).Inv := by
  have htmr : s.ntx.tmr = none := by
    cases hk : s.ntx.tmr with
    | none => rfl
    | some k => simpa [hk, timerMatches] using h.timed
  have hbus : s.ntx.busWr = none := by
    cases hv : s.ntx.busWr with
    | none => rfl
    | some v => simpa using h.busWr v hv
  exact respond_inv (by decide) h.params h.traceRwLow htmr hbus h.memory (by simpa [delaysLeft] using h.pulse)

theorem State.Running.abandoned (h : s.Running ls) (l : Line) : (abandon l s).Inv := by
  cases l with
  | write v => exact resetNtx_inv (s := awaitBus v [] s) h.params h.traceRwLow h.memory
  | startDelay n => exact resetNtx_inv h.params h.traceRwLow h.memory
  | endDelay n => exact resetNtx_inv h.params h.traceRwLow h.memory

theorem State.Running.waits (h : s.Running (.write v :: ls)) : (awaitBus v (.write v :: ls) (tick s)).Inv where
  params := h.params
  traceRwLow := h.traceRwLow
  todoRwLow := h.linesRwLow
  todoPaired := (timed_write h.timed).2
  timerIdle := (timed_write h.timed).1
  status := h.status
  idle := fun hidle => by simp [h.fsm] at hidle
  busy := fun _ => ⟨h.rspValid, rfl, rfl⟩
  memory := h.memory.wf
  lost := h.memory.lost
  pulse := h.pulse

/-- The byte of a line goes on the trace. -/
theorem State.Running.write_rwLow (h : s.Running (.write v :: ls)) (r : BusResult) :
    (s.trace ++ [Event.write v r]).all (Event.rwLow s.cfg) = true := by
  obtain ⟨hv, -⟩ : Line.rwLow s.cfg (.write v) = true ∧ ls.all (Line.rwLow s.cfg) = true := by simpa using h.linesRwLow
  rw [List.all_append, h.traceRwLow, List.all_cons, Event.rwLow_eq_line]
  simpa [Event.line] using hv

theorem State.Running.answeredOk (h : s.Running (.write v :: ls)) (as : List BusAnswer) :
    (writeOk v { tick s with busIn := as }).Running ls where
  params := h.params
  traceRwLow := h.write_rwLow .ok
  linesRwLow := by
    obtain ⟨-, hls⟩ : Line.rwLow s.cfg (.write v) = true ∧ ls.all (Line.rwLow s.cfg) = true := by simpa using h.linesRwLow
    exact hls
  timed := by
    obtain ⟨htmr, hls⟩ := timed_write h.timed
    simpa [htmr, timerMatches] using hls
  status := h.status
  fsm := h.fsm
  rspValid := h.rspValid
  busWr := nofun
  memory := Receiver.observe_memOk _ _ _ h.memory
  pulse := by simpa [delaysLeft] using h.pulse

theorem State.Running.failed (h : s.Running (.write v :: ls)) (e : BusErr) (as : List BusAnswer) :
    (writeErr v e { tick s with busIn := as }).Inv := by
  obtain ⟨htmr, -⟩ := timed_write h.timed
  exact respond_inv (by decide) h.params (h.write_rwLow (.err e)) htmr rfl (Receiver.observeLost_memOk _ _ _) (Nat.le_refl _)

theorem State.Running.starts (h : s.Running (.startDelay n :: ls)) : (startDelay n (tick s)).Running ls where
  params := h.params
  traceRwLow := by simpa [Event.rwLow] using h.traceRwLow
  linesRwLow := by simpa [Line.rwLow] using h.linesRwLow
  timed := timed_startDelay h.timed _
  status := h.status
  fsm := h.fsm
  rspValid := h.rspValid
  busWr := fun v hv => by simpa using h.busWr v hv
  memory := h.memory
  pulse := h.pulse

theorem State.Running.stops (h : s.Running (.endDelay n :: ls)) : (endDelay n (tick s)).Running ls := by
  obtain ⟨⟨k, hk⟩, hls⟩ := timed_endDelay h.timed
  have hpulse := h.pulse
  rw [endDelay_running (k := k) (by simpa using hk)]
  exact {
    params := h.params
    traceRwLow := h.traceRwLow
    linesRwLow := by simpa [Line.rwLow] using h.linesRwLow
    timed := hls
    status := h.status
    fsm := h.fsm
    rspValid := h.rspValid
    busWr := fun v hv => by simpa using h.busWr v hv
    memory := h.memory
    pulse := by simpa [delaysLeft, Nat.add_assoc] using hpulse }

/-- However a request ends, the invariant holds. -/
theorem State.Running.run_inv (h : s.Running ls) : (run ls s).Inv :=
  run_elim (I := State.Running) (Q := State.Inv)
    (done := fun _ h => h.done)
    (reset := fun l _ _ h _ => h.abandoned l)
    (wait := fun _ _ _ h _ _ => h.waits)
    (ok := fun _ _ _ _ as h _ _ _ => h.answeredOk as)
    (err := fun _ _ _ a as h _ _ _ => h.failed a.wrErr as)
    (start := fun _ _ _ h _ => h.starts)
    (stop := fun _ _ _ h _ => h.stops) ls s h

/-- In BUSY the invariant is that of the lines still to run. -/
theorem State.Inv.running (h : s.Inv) (hbusy : s.ntx.fsm = .busy) : s.Running s.ntx.todo := by
  obtain ⟨hvalid, -, hhead⟩ := h.busy hbusy
  exact {
    params := h.params
    traceRwLow := h.traceRwLow
    linesRwLow := h.todoRwLow
    timed := by simpa [h.timerIdle, timerMatches] using h.todoPaired
    status := h.status
    fsm := hbusy
    rspValid := hvalid
    busWr := fun v hv => by simpa [hv] using hhead
    memory := h.memOk
    pulse := h.pulse }

/-- With a request's lines still to run, its own waits are over when they are (R162, R166). -/
theorem prepared_pulse {i : Instr} (hls : requestLines s.cfg s.ntx.bl i = some ls) (hpulse : s.rcv.pulseEnd ≤ s.now) :
    (prepared i s).rcv.pulseEnd ≤ (prepared i s).now + delaysLeft ls := by
  cases i with
  | wrnib v =>
    obtain ⟨-, rfl⟩ : illegalOperand s.cfg v = false ∧ pulseLines s.cfg s.ntx.bl v = ls := by simpa [requestLines] using hls
    rw [← List.append_nil (pulseLines _ _ _), delaysLeft_pulseLines]
    simp [prepared, delaysLeft]
  | setbl x => simpa [prepared] using Nat.le_add_right_of_le hpulse
  | waitus n => exact Nat.le_add_right_of_le hpulse
  | illegal w => cases hls
  | _ =>
    obtain rfl := Option.some.inj hls
    rw [byteLines, delaysLeft_pulseLines]
    simp [prepared]

/-- The start of a request leaves DDRAM in order. -/
theorem prepared_memOk {i : Instr} (h : s.rcv.MemOk) : (prepared i s).rcv.MemOk := by
  cases i with
  | setbl x => exact Receiver.beginRefresh_memOk _ h
  | waitus n => exact h
  | illegal w => exact h
  | _ => exact Receiver.beginPulse_memOk _ _ _ h

@[simp] theorem prepared_cfg (i : Instr) (s : State) : (prepared i s).cfg = s.cfg := by cases i <;> rfl

/-- Of NTX the start of a request writes `BL` at most (R97). -/
theorem prepared_ntx (i : Instr) (s : State) : ∃ bl, (prepared i s).ntx = { s.ntx with bl := bl } := by
  cases i <;> exact ⟨_, rfl⟩

/-- A request that is accepted in IDLE runs its lines under the invariant. -/
theorem State.Inv.accepted (h : s.Inv) (hidle : s.ntx.fsm = .idle) {i : Instr} (w : Word)
    (hls : requestLines s.cfg s.ntx.bl i = some ls) : (prepared i (accept w s)).Running ls := by
  obtain ⟨htodo, hbus⟩ := h.idle hidle
  obtain ⟨bl, hntx⟩ := prepared_ntx i (accept w s)
  exact {
    params := by simpa using h.params
    traceRwLow := by simpa using h.traceRwLow
    linesRwLow := by simpa using requestLines_rwLow h.params hls
    timed := by simpa [hntx, h.timerIdle, timerMatches] using requestLines_paired hls
    status := by simpa [hntx] using h.status
    fsm := by simp [hntx]
    rspValid := by simp [hntx]
    busWr := by simp [hntx, hbus]
    memory := prepared_memOk h.memOk
    pulse := prepared_pulse (s := accept w s) hls (by simpa [htodo, delaysLeft] using h.pulse) }

/-- An ILLEGAL request only responds (R141). -/
theorem State.Inv.raisesIllegal (h : s.Inv) (hidle : s.ntx.fsm = .idle) (w : Word) : (raiseIllegal (accept w s)).Inv := by
  obtain ⟨htodo, hbus⟩ := h.idle hidle
  exact respond_inv (by decide) h.params h.traceRwLow h.timerIdle hbus h.memOk (by simpa [htodo, delaysLeft] using h.pulse)

/-- Every instruction keeps the invariant, however it ends. -/
theorem State.Inv.exec {i : Instr} (h : s.Inv) (hexec : exec i s = .next t) : t.Inv := by
  cases hf : s.ntx.fsm with
  | busy =>
    obtain rfl : s = t := by simpa [exec_busy hf] using hexec
    exact h
  | idle =>
    obtain ⟨-, rfl⟩ | ⟨ls, hls, rfl⟩ := exec_idle_cases hf hexec
    · exact h.raisesIllegal hf _
    · exact (h.accepted hf _ hls).run_inv

/-- Every step keeps the invariant. -/
theorem State.Inv.step (h : s.Inv) (hstep : step s = .next t) : t.Inv := by
  obtain ⟨-, rfl⟩ | ⟨hbusy, rfl⟩ | ⟨-, d, q, b, rfl⟩ | ⟨-, d, q, i, hexec⟩ := step_cases hstep
  · exact resetNtx_inv h.params h.traceRwLow h.memOk
  · exact (h.running hbusy).run_inv
  · exact h.host d q _ b
  · exact (h.host d q _ s.rstSeen).exec hexec

end Invariant

/-- Settles O40: what a step can do is a reset, the lines of a request, or the host's own; each keeps the invariant. -/
theorem stepKeepsInvariant : Obligations.StepKeepsInvariant := by
  unfold Obligations.StepKeepsInvariant
  intro s t h hstep
  exact h.step hstep

/-- Settles O39: field by field, on the one state. -/
theorem resetMeetsInvariant : Obligations.ResetMeetsInvariant where
  params := by decide
  traceRwLow := rfl
  todoRwLow := rfl
  todoPaired := rfl
  timerIdle := rfl
  status := by decide
  idle := fun _ => ⟨rfl, rfl⟩
  busy := nofun
  memory := rfl
  lost := nofun
  pulse := Nat.le_refl _

/-! ## The trace, the host and the sticky error flag -/

/-- Settles O41: a step adds events, of whatever lines. -/
theorem traceOnlyGrows : Obligations.TraceOnlyGrows := by
  unfold Obligations.TraceOnlyGrows
  intro s t h
  obtain ⟨evs, ht, -⟩ := step_addsOnly (L := fun _ => True) (fun _ _ => trivial) (fun _ _ _ _ _ => trivial) h
  exact ⟨evs, ht.symm⟩

@[simp] theorem prepared_drv (i : Instr) (s : State) : (prepared i s).drv = s.drv := by cases i <;> rfl

@[simp] theorem prepared_hostIn (i : Instr) (s : State) : (prepared i s).hostIn = s.hostIn := by cases i <;> rfl

/-- Settles O42: neither the start of a request nor its lines touch the parameters or the host. -/
theorem instructionsLeaveHost : Obligations.InstructionsLeaveHost := by
  unfold Obligations.InstructionsLeaveHost
  intro i s t h
  cases hf : s.ntx.fsm with
  | busy =>
    obtain rfl : s = t := by simpa [exec_busy hf] using h
    exact ⟨rfl, rfl, rfl⟩
  | idle =>
    obtain ⟨-, rfl⟩ | ⟨ls, -, rfl⟩ := exec_idle_cases hf h
    · exact ⟨rfl, rfl, rfl⟩
    · simpa using run_outside ls (prepared i (accept (encodeRequest i) s))

/-- With no reset to come, the lines of a request leave a flag of the bus's errors set. -/
theorem run_errs {ls : List Line} {s : State} (hr : s.rstIn = []) (he : s.ntx.errs = true) : (run ls s).ntx.errs = true := by
  refine run_elim (I := fun _ t => t.rstIn = [] ∧ t.ntx.errs = true) (Q := fun t => t.ntx.errs = true)
    ?done ?reset ?wait ?ok ?err ?start ?stop ls s ⟨hr, he⟩
  case done => exact fun t ⟨_, he⟩ => he
  case reset => exact fun l ls t ⟨hr, _⟩ hdue => by simp [hr] at hdue
  case wait => exact fun v ls t ⟨_, he⟩ _ _ => he
  case ok => exact fun v ls t a as ⟨hr, he⟩ _ _ _ => ⟨by simp [hr], he⟩
  case err => exact fun v ls t a as _ _ _ _ => rfl
  case start => exact fun n ls t ⟨hr, he⟩ _ => ⟨by simp [hr], he⟩
  case stop => exact fun n ls t ⟨hr, he⟩ _ => ⟨by simp [hr], by simpa using he⟩

/-- With no reset to come, no instruction clears `ERRS` (R21). -/
theorem exec_errs {s t : State} {i : Instr} (hr : s.rstIn = []) (he : s.ntx.errs = true) (h : exec i s = .next t) :
    t.ntx.errs = true := by
  cases hf : s.ntx.fsm with
  | busy =>
    obtain rfl : s = t := by simpa [exec_busy hf] using h
    exact he
  | idle =>
    obtain ⟨-, rfl⟩ | ⟨ls, -, rfl⟩ := exec_idle_cases hf h
    · exact he
    · obtain ⟨bl, hntx⟩ := prepared_ntx i (accept (encodeRequest i) s)
      exact run_errs (by simpa using hr) (by simpa [hntx] using he)

/-- Settles O36: of what a step can do, only a reset clears the flag. -/
theorem stickyErrorStays : Obligations.StickyErrorStays := by
  unfold Obligations.StickyErrorStays
  intro s t hr h he
  obtain ⟨hdue, -⟩ | ⟨-, rfl⟩ | ⟨-, d, q, b, rfl⟩ | ⟨-, d, q, i, hexec⟩ := step_cases h
  · simp [hr] at hdue
  · exact run_errs hr he
  · exact he
  · exact exec_errs (s := { tick s with drv := d, hostIn := q }) (by simp [hr]) he hexec

end Sys2Proof.Machine

/-! PROOFS. The control lines of the bytes on the bus (R74, R94), and how a request ends: with an OK response where every answer is
`ok`, at its one failing write (R140), at a write that is not answered, from which it goes on as if it had not waited, or at a
reset (R158). -/

namespace Sys2Proof.Machine

/-! ## The control lines of a pulse's bytes (R74, R91, R94) -/

section ControlLines

variable {p : Params} {bl : Bool} {v : Byte}

/-- The backlight bit moves no data line. -/
@[simp] theorem dataLines_overlay (p : Params) (bl : Bool) (v : Byte) : dataLines (overlay p bl v) = dataLines v := by
  cases bl with
  | false => simp [overlay, backlightByte]
  | true => exact dataLines_or_lineMask v p.blBit

@[simp] theorem dataLines_raiseE (p : Params) (v : Byte) : dataLines (raiseE p v) = dataLines v :=
  dataLines_or_lineMask v p.eBit

theorem overlay_rs (hp : p.Wf) : (overlay p bl v).getLsbD p.rsBit.val = v.getLsbD p.rsBit.val := by
  obtain ⟨-, -, hrsBl, -⟩ := hp
  simp [overlay_bit, Fin.val_inj, hrsBl]

theorem raiseE_rs (hp : p.Wf) : (raiseE p v).getLsbD p.rsBit.val = v.getLsbD p.rsBit.val := by
  obtain ⟨-, hrsE, -⟩ := hp
  simp [raiseE_bit, Fin.val_inj, hrsE]

theorem overlay_bl : (overlay p bl v).getLsbD p.blBit.val = (bl || v.getLsbD p.blBit.val) := by
  simp [overlay_bit, Bool.or_comm]

theorem raiseE_bl (hp : p.Wf) : (raiseE p v).getLsbD p.blBit.val = v.getLsbD p.blBit.val := by
  obtain ⟨-, -, -, -, -, heBl, -⟩ := hp
  simp [raiseE_bit, Fin.val_inj, Ne.symm heBl]

theorem overlay_e (hp : p.Wf) : (overlay p bl v).getLsbD p.eBit.val = v.getLsbD p.eBit.val := by
  obtain ⟨-, -, -, -, -, heBl, -⟩ := hp
  simp [overlay_bit, Fin.val_inj, heBl]

theorem raiseE_e : (raiseE p v).getLsbD p.eBit.val = true := by simp [raiseE_bit]

theorem controlClear_iff : WellFormed.controlClear p v = true ↔ v.getLsbD p.eBit.val = false ∧ v.getLsbD p.rwBit.val = false := by
  simp [WellFormed.controlClear]

/-- Settles O29: BL's mask and E's set their own bit only. -/
theorem controlByteLines : Obligations.ControlByteLines := by
  unfold Obligations.ControlByteLines
  intro p bl v hp hv
  obtain ⟨he, hrw⟩ := controlClear_iff.mp hv
  refine ⟨List.forall_mem_cons.mpr ⟨?low, List.forall_mem_singleton.mpr ?high⟩, (overlay_e hp).trans he, raiseE_e⟩
  case low => exact ⟨dataLines_overlay p bl v, overlay_rs hp, overlay_bl, (overlay_rw hp).trans hrw⟩
  case high =>
    refine ⟨?_, ?_, ?_, ?_⟩
    · rw [dataLines_raiseE, dataLines_overlay]
    · rw [raiseE_rs hp, overlay_rs hp]
    · rw [raiseE_bl hp, overlay_bl]
    · rw [raiseE_rw hp, overlay_rw hp, hrw]

/-- The line writes the backlight bit `bl`, if it writes (R94). -/
def Line.carriesBacklight (p : Params) (bl : Bool) : Line → Prop
  | .write v => v.getLsbD p.blBit.val = bl
  | .startDelay _ => True
  | .endDelay _ => True

theorem pulseLines_carryBacklight (hp : p.Wf) (hv : v.getLsbD p.blBit.val = false) :
    ∀ l ∈ pulseLines p bl v, l.carriesBacklight p bl := by
  have hlow : (overlay p bl v).getLsbD p.blBit.val = bl := by rw [overlay_bl, hv, Bool.or_false]
  have hhigh : (raiseE p (overlay p bl v)).getLsbD p.blBit.val = bl := by rw [raiseE_bl hp, hlow]
  cases hs : p.settle <;> simp [pulseLines, delayLines, hs, Line.carriesBacklight, hlow, hhigh]

theorem byteLines_carryBacklight (hp : p.Wf) (b : Byte) (rs : Bool) :
    ∀ l ∈ byteLines p bl b rs, l.carriesBacklight p bl := by
  obtain ⟨-, -, hrsBl, -⟩ := id hp
  refine List.forall_mem_append.mpr ⟨pulseLines_carryBacklight hp ?_, pulseLines_carryBacklight hp ?_⟩
  · simp [hiNibble_controlBit, Ne.symm hrsBl]
  · simp [loNibble_controlBit, Ne.symm hrsBl]

theorem requestLines_byteRequest (p : Params) (bl rs : Bool) (b : Byte) :
    requestLines p bl (byteRequest rs b) = some (byteLines p bl b rs) := by
  cases rs <;> rfl

/-- Settles O33: the events come from the lines, and each line of the two pulses carries `BL`. -/
theorem everyByteCarriesBacklight : Obligations.EveryByteCarriesBacklight := by
  unfold Obligations.EveryByteCarriesBacklight
  intro s t b rs _ hp h
  have hlines : ∀ ls, requestLines s.cfg s.ntx.bl (byteRequest rs b) = some ls →
      ∀ l ∈ ls, l.carriesBacklight s.cfg s.ntx.bl := by
    intro ls hls
    obtain rfl : byteLines s.cfg s.ntx.bl b rs = ls := by simpa [requestLines_byteRequest] using hls
    exact byteLines_carryBacklight hp b rs
  obtain ⟨evs, ht, hevs⟩ := exec_addsOnly hlines h
  exact ⟨evs, ht, fun v r hv => hevs _ hv⟩

end ControlLines

/-! ## `BL` (R17, R98) -/

/-- With no reset to come, the lines of a request leave `BL` alone. -/
theorem run_bl {ls : List Line} {s : State} (hr : s.rstIn = []) : (run ls s).ntx.bl = s.ntx.bl := by
  refine run_elim (I := fun _ t => t.rstIn = [] ∧ t.ntx.bl = s.ntx.bl) (Q := fun t => t.ntx.bl = s.ntx.bl)
    ?done ?reset ?wait ?ok ?err ?start ?stop ls s ⟨hr, rfl⟩
  case done => exact fun t ⟨_, h⟩ => h
  case reset => exact fun l ls t ⟨hr, _⟩ hdue => by simp [hr] at hdue
  case wait => exact fun v ls t ⟨_, h⟩ _ _ => h
  case ok => exact fun v ls t a as ⟨hr, h⟩ _ _ _ => ⟨by simp [hr], h⟩
  case err => exact fun v ls t a as ⟨_, h⟩ _ _ _ => h
  case start => exact fun n ls t ⟨hr, h⟩ _ => ⟨by simp [hr], h⟩
  case stop => exact fun n ls t ⟨hr, h⟩ _ => ⟨by simp [hr], by simpa using h⟩

/-- Settles O34: the start of SETBL writes `BL`, no other request's does, and the lines leave it alone. -/
theorem onlySetblWritesBacklight : Obligations.OnlySetblWritesBacklight := by
  unfold Obligations.OnlySetblWritesBacklight
  intro i s t ⟨hidle, hr⟩ h
  obtain ⟨hls, rfl⟩ | ⟨ls, hls, rfl⟩ := exec_idle_cases hidle h
  · cases i with
    | setbl x => cases hls
    | _ => rfl
  · rw [run_bl (by simpa using hr)]
    cases i <;> rfl

/-! ## The one failing write (R140, R142, R143) -/

/-- From `s` to `t` a request has added events of which none is a failed write, and left `RSP_INFO` and `ERRS` alone. -/
structure NoErrorYet (s t : State) : Prop where
  rspInfo : t.ntx.rspInfo = s.ntx.rspInfo
  errs : t.ntx.errs = s.ntx.errs
  events : ∃ evs, t.trace = s.trace ++ evs ∧ ∀ v e, Event.write v (.err e) ∉ evs

/-- From `s` to `t` a request has ended at its one failing write, the last event of all. -/
structure EndsAtFailure (s t : State) : Prop where
  rspStatus : t.ntx.rspStatus = statusBusError
  errs : t.ntx.errs = true
  pins : t.rcv.pins = none
  events : ∃ evs v, t.trace = s.trace ++ evs ++ [.write v (.err t.ntx.rspInfo)] ∧ ∀ u e, Event.write u (.err e) ∉ evs

section BusError

variable {s t u : State}

/-- What adds no failed write, and touches neither `RSP_INFO` nor `ERRS`. -/
theorem NoErrorYet.add {new : List Event} (h : NoErrorYet s t) (hinfo : u.ntx.rspInfo = t.ntx.rspInfo)
    (herrs : u.ntx.errs = t.ntx.errs) (htrace : u.trace = t.trace ++ new) (hnew : ∀ v e, Event.write v (.err e) ∉ new) :
    NoErrorYet s u := by
  obtain ⟨evs, hevs, hno⟩ := h.events
  exact ⟨hinfo.trans h.rspInfo, herrs.trans h.errs, evs ++ new, by simp [htrace, hevs],
    fun v e hv => (List.mem_append.mp hv).elim (hno v e) (hnew v e)⟩

theorem NoErrorYet.fails (h : NoErrorYet s t) (v : Byte) (e : BusErr) : EndsAtFailure s (writeErr v e t) := by
  obtain ⟨evs, hevs, hno⟩ := h.events
  exact ⟨rfl, rfl, rfl, evs, v, by simp [hevs], hno⟩

/-- With no reset to come, the lines of a request that runs to a response end it well or at its one failing write. -/
theorem run_precise {ls : List Line} (hr : s.rstIn = []) (hbusy : s.ntx.fsm = .busy) (hend : (run ls s).ntx.fsm = .idle) :
    (run ls s).ntx.rspStatus = statusOk ∧ NoErrorYet s (run ls s) ∨ EndsAtFailure s (run ls s) := by
  refine run_elim (I := fun _ t => t.rstIn = [] ∧ t.ntx.fsm = .busy ∧ NoErrorYet s t)
    (Q := fun t => t.ntx.fsm = .idle → t.ntx.rspStatus = statusOk ∧ NoErrorYet s t ∨ EndsAtFailure s t)
    ?done ?reset ?wait ?ok ?err ?start ?stop ls s ⟨hr, hbusy, rfl, rfl, [], by simp, nofun⟩ hend
  case done => exact fun t ⟨_, _, h⟩ _ => .inl ⟨rfl, h.add (new := []) rfl rfl (by simp) nofun⟩
  case reset => exact fun l ls t ⟨hr, _⟩ hdue => by simp [hr] at hdue
  case wait => exact fun v ls t ⟨_, hbusy, _⟩ _ _ hidle => by simp [hbusy] at hidle
  case ok =>
    exact fun v ls t a as ⟨hr, hbusy, h⟩ _ _ _ => ⟨by simp [hr], hbusy, h.add rfl rfl (writeOk_trace v _) (by simp)⟩
  case err => exact fun v ls t a as ⟨_, _, h⟩ _ _ _ _ => .inr (NoErrorYet.fails (t := { tick t with busIn := as }) ⟨h.rspInfo, h.errs, h.events⟩ v a.wrErr)
  case start =>
    exact fun n ls t ⟨hr, hbusy, h⟩ _ => ⟨by simp [hr], hbusy, h.add rfl rfl (startDelay_trace n _) (by simp)⟩
  case stop =>
    exact fun n ls t ⟨hr, hbusy, h⟩ _ =>
      ⟨by simp [hr], by simpa using hbusy, h.add (new := []) (by simp) (by simp) (by simp) nofun⟩

/-- Settles O35: a request that is ILLEGAL adds no event; the lines of any other end it well or at its one failing write. -/
theorem busErrorIsPrecise : Obligations.BusErrorIsPrecise := by
  unfold Obligations.BusErrorIsPrecise
  intro i s t ⟨hidle, hr⟩ h hend
  obtain ⟨-, rfl⟩ | ⟨ls, -, rfl⟩ := exec_idle_cases hidle h
  · exact .inl ⟨by simp [statusIllegal], rfl, rfl, [], by simp, nofun⟩
  · obtain ⟨bl, hntx⟩ := prepared_ntx i (accept (encodeRequest i) s)
    obtain ⟨hstatus, hno⟩ | hfail := run_precise (s := prepared i (accept (encodeRequest i) s)) (by simpa using hr)
      (by simp [hntx]) hend
    · obtain ⟨evs, hevs, hnone⟩ := hno.events
      refine .inl ⟨by simp [hstatus, statusOk], ?_, ?_, evs, by simpa using hevs, hnone⟩
      · simpa [hntx] using hno.rspInfo
      · simpa [hntx] using hno.errs
    · obtain ⟨evs, v, hevs, hnone⟩ := hfail.events
      exact .inr ⟨hfail.rspStatus, hfail.errs, hfail.pins, evs, v, by simpa using hevs, hnone⟩

end BusError

end Sys2Proof.Machine

/-! PROOFS. A request that waited for the bus goes on as if the answers had been there (R64); one whose answers are all `ok` runs to
its response (R63, R96); one that a reset falls into is abandoned (R157, R158, R162). -/

namespace Sys2Proof.Machine

/-! ## A request that waits goes on (R18, R64) -/

section Resume

variable {s t : State} {ls : List Line}

theorem busIn_cases (s : State) : s.busIn = [] ∨ ∃ a as, s.busIn = a :: as := by
  cases s.busIn with
  | nil => exact .inl rfl
  | cons a as => exact .inr ⟨a, as, rfl⟩

theorem endDelay_withTodo (n : Nat) (x : List Line) (s : State) :
    endDelay n { s with ntx := { s.ntx with todo := x } } =
      { endDelay n s with ntx := { (endDelay n s).ntx with todo := x } } := by
  cases hk : s.ntx.tmr <;> simp [endDelay, hk]

theorem endDelay_withBusIn (n : Nat) (as : List BusAnswer) (s : State) :
    endDelay n { s with busIn := as } = { endDelay n s with busIn := as } := by
  cases hk : s.ntx.tmr <;> simp [endDelay, hk]

/-- What a request does not look at: the lines that an earlier request may have left (log 5). -/
theorem run_todo (hr : s.rstIn = []) (x : List Line) : run ls { s with ntx := { s.ntx with todo := x } } = run ls s := by
  induction ls generalizing s with
  | nil => rfl
  | cons l ls ih =>
    cases l with
    | write v =>
      obtain hb | ⟨a, as, hb⟩ := busIn_cases s
      · rw [run_write_wait hr hb, run_write_wait (by exact hr) (by exact hb)]
        rfl
      · cases ha : a.wrOk with
        | false =>
          rw [run_write_err hr hb ha, run_write_err (by exact hr) (by exact hb) ha]
          rfl
        | true =>
          rw [run_write_ok hr hb ha, run_write_ok (by exact hr) (by exact hb) ha]
          exact ih (s := writeOk v { s with busIn := as }) hr
    | startDelay n =>
      rw [run_startDelay hr, run_startDelay (by exact hr)]
      exact ih (s := startDelay n s) hr
    | endDelay n =>
      rw [run_endDelay hr, run_endDelay (by exact hr), endDelay_withTodo]
      exact ih (s := endDelay n s) (by simpa using hr)

/-- To have waited for a write changes nothing of what the request then does. -/
theorem run_awaitBus (hr : s.rstIn = []) (v : Byte) (x : List Line) :
    run (.write v :: ls) (awaitBus v x s) = run (.write v :: ls) s := by
  obtain hb | ⟨a, as, hb⟩ := busIn_cases s
  · rw [run_write_wait hr hb, run_write_wait (by exact hr) (by exact hb)]
    rfl
  · cases ha : a.wrOk with
    | false =>
      rw [run_write_err hr hb ha, run_write_err (by exact hr) (by exact hb) ha]
      rfl
    | true =>
      rw [run_write_ok hr hb ha, run_write_ok (by exact hr) (by exact hb) ha]
      exact run_todo (s := writeOk v { s with busIn := as }) hr x

/-- With no reset to come, a request's lines that stop at an unanswered write go on, with the answers `as`, as if these had come
after the first ones. -/
theorem run_resumes (hr : s.rstIn = []) (as : List BusAnswer) (hstop : (run ls s).ntx.fsm = .busy) :
    (run ls s).rstIn = [] ∧ resume { run ls s with busIn := as } = run ls { s with busIn := s.busIn ++ as } := by
  induction ls generalizing s with
  | nil => cases hstop
  | cons l ls ih =>
    cases l with
    | write v =>
      obtain hb | ⟨a, bs, hb⟩ := busIn_cases s
      · rw [run_write_wait hr hb, hb, List.nil_append]
        exact ⟨hr, run_awaitBus (ls := ls) (s := { s with busIn := as }) hr v (.write v :: ls)⟩
      · cases ha : a.wrOk with
        | false =>
          rw [run_write_err hr hb ha] at hstop
          cases hstop
        | true =>
          rw [run_write_ok hr hb ha] at hstop ⊢
          rw [hb, run_write_ok (s := { s with busIn := a :: bs ++ as }) hr rfl ha]
          exact ih (s := writeOk v { s with busIn := bs }) hr hstop
    | startDelay n =>
      rw [run_startDelay hr] at hstop ⊢
      rw [run_startDelay (by exact hr)]
      exact ih (s := startDelay n s) hr hstop
    | endDelay n =>
      rw [run_endDelay hr] at hstop ⊢
      rw [run_endDelay (by exact hr), endDelay_withBusIn n (s.busIn ++ as) s]
      rw [← endDelay_busIn n s]
      exact ih (s := endDelay n s) (by simpa using hr) hstop

/-- The start of a request does not look at the bus's answers. -/
theorem prepared_withBusIn (i : Instr) (w : Word) (s : State) (as : List BusAnswer) :
    prepared i (accept w { s with busIn := as }) = { prepared i (accept w s) with busIn := as } := by
  cases i <;> rfl

/-- Settles O38: a request that stops BUSY has lines, and its lines go on. -/
theorem suspendedRequestResumes : Obligations.SuspendedRequestResumes := by
  unfold Obligations.SuspendedRequestResumes
  intro i s t as ⟨hidle, hr⟩ h hbusy
  obtain ⟨-, rfl⟩ | ⟨ls, hls, rfl⟩ := exec_idle_cases hidle h
  · cases hbusy
  · obtain ⟨hrst, hresume⟩ := run_resumes (s := prepared i (accept (encodeRequest i) s)) (by simpa using hr) as hbusy
    rw [step_noReset (by simp [hrst]), exec_idle (by exact hidle)]
    dsimp only
    rw [hbusy, hls, prepared_withBusIn i _ s (s.busIn ++ as)]
    rw [prepared_busIn] at hresume
    exact congrArg _ hresume

end Resume

/-! ## A request whose answers are all `ok` -/

/-- How many writes the lines make. -/
def writeCount : List Line → Nat
  | [] => 0
  | .write _ :: ls => writeCount ls + 1
  | .startDelay _ :: ls => writeCount ls
  | .endDelay _ :: ls => writeCount ls

section AllOk

variable {s : State} {ls : List Line}

@[simp] theorem writeCount_append (ls ms : List Line) : writeCount (ls ++ ms) = writeCount ls + writeCount ms := by
  induction ls with
  | nil => simp [writeCount]
  | cons l ls ih => cases l <;> simp [writeCount, ih, Nat.add_right_comm]

@[simp] theorem writeCount_pulseLines (p : Params) (bl : Bool) (v : Byte) :
    writeCount (pulseLines p bl v) = pulseWrites p := by
  cases hs : p.settle <;> simp [pulseLines, delayLines, writeCount, pulseWrites, hs]

@[simp] theorem writeCount_byteLines (p : Params) (bl : Bool) (b : Byte) (rs : Bool) :
    writeCount (byteLines p bl b rs) = 2 * pulseWrites p := by
  simp [byteLines, two_mul]

/-- R43: no request makes more than six writes. -/
theorem requestLines_writeCount {p : Params} {bl : Bool} {i : Instr} (h : requestLines p bl i = some ls) :
    writeCount ls ≤ 6 := by
  have hpulse : pulseWrites p ≤ 3 := by cases hs : p.settle <;> simp [pulseWrites, hs]
  cases i with
  | wrnib v =>
    obtain ⟨-, rfl⟩ : illegalOperand p v = false ∧ pulseLines p bl v = ls := by simpa [requestLines] using h
    rw [writeCount_pulseLines]
    omega
  | setbl x =>
    obtain rfl := Option.some.inj h
    simp [writeCount]
  | waitus n =>
    obtain rfl := Option.some.inj h
    by_cases hn : n = 0#24 <;> simp [waitLines, hn, delayLines, writeCount]
  | illegal w => cases h
  | _ =>
    obtain rfl := Option.some.inj h
    rw [writeCount_byteLines]
    omega

/-- The lines of a request with every write answered `ok` run to an OK response, with all their events. -/
theorem run_responds (hr : s.rstIn = []) (hb : okAnswers (writeCount ls) s.busIn = true) :
    Responds s (run ls s) statusOk (okEvents ls) ∧ (run ls s).busIn = s.busIn.drop (writeCount ls) := by
  induction ls generalizing s with
  | nil => exact ⟨⟨⟨rfl, hr⟩, rfl, rfl, by simp [okEvents], rfl, rfl, rfl, rfl⟩, rfl⟩
  | cons l ls ih =>
    cases l with
    | write v =>
      obtain ⟨a, as, has, ha, hb⟩ := okAnswers_cons hb
      rw [run_write_ok hr has ha]
      obtain ⟨h, hdrop⟩ := ih (s := writeOk v { s with busIn := as }) hr hb
      exact ⟨{ h with trace := by simp [h.trace, okEvents] }, by simp [hdrop, has, writeCount]⟩
    | startDelay n =>
      rw [run_startDelay hr]
      obtain ⟨h, hdrop⟩ := ih (s := startDelay n s) hr hb
      exact ⟨{ h with trace := by simp [h.trace, okEvents] }, hdrop⟩
    | endDelay n =>
      rw [run_endDelay hr]
      obtain ⟨h, hdrop⟩ := ih (s := endDelay n s) (by simpa using hr) (by rwa [endDelay_busIn])
      refine ⟨{ h with trace := ?_, cfg := ?_, drv := ?_, hostIn := ?_, rstSeen := ?_ }, by rwa [endDelay_busIn] at hdrop⟩
      · simp [h.trace, okEvents]
      · simp [h.cfg]
      · simp [h.drv]
      · simp [h.hostIn]
      · simp [h.rstSeen]

@[simp] theorem prepared_rstSeen (i : Instr) (s : State) : (prepared i s).rstSeen = s.rstSeen := by cases i <;> rfl

/-- `BL` once the instruction has been accepted (R97). -/
def blAfter (i : Instr) (bl : Bool) : Bool :=
  match i with
  | .setbl x => x
  | _ => bl

theorem prepared_bl (i : Instr) (s : State) : (prepared i s).ntx.bl = blAfter i s.ntx.bl := by cases i <;> rfl

/-- An instruction with lines, given to a free NTX with every write to be answered `ok`, runs to an OK response. -/
theorem exec_responds {i : Instr} (hs : s.Free) (hls : requestLines s.cfg s.ntx.bl i = some ls)
    (hb : okAnswers (writeCount ls) s.busIn = true) :
    ∃ t, exec i s = .next t ∧ Responds s t statusOk (okEvents ls) ∧ t.ntx.bl = blAfter i s.ntx.bl ∧
      t.busIn = s.busIn.drop (writeCount ls) := by
  obtain ⟨hidle, hr⟩ := hs
  have hprep : (prepared i (accept (encodeRequest i) s)).rstIn = [] := by simpa using hr
  obtain ⟨h, hdrop⟩ := run_responds (ls := ls) hprep (by simpa using hb)
  refine ⟨_, by rw [exec_idle hidle, hls], ⟨h.free, h.rspValid, h.rspStatus, ?_, ?_, ?_, ?_, ?_⟩, ?_, by simpa using hdrop⟩
  · simpa using h.trace
  · simpa using h.cfg
  · simpa using h.drv
  · simpa using h.hostIn
  · simpa using h.rstSeen
  · rw [run_bl hprep, prepared_bl]
    rfl

/-- Only an ILLEGAL word and an ill-formed operand have no lines (R90, R141). -/
theorem requestLines_eq_none_iff (p : Params) (bl : Bool) (i : Instr) :
    requestLines p bl i = none ↔ (∃ v, i = .wrnib v ∧ WellFormed.controlClear p v = false) ∨ ∃ w, i = .illegal w := by
  have hclear (v : Byte) : illegalOperand p v = true ↔ WellFormed.controlClear p v = false := by
    rw [← Bool.not_eq_false, illegalOperand_eq_false_iff, Bool.not_eq_true]
  cases i <;> simp [requestLines, hclear]

/-- Settles O27: an instruction without lines responds ILLEGAL, and six answers are enough for the lines of any other. -/
theorem everyInstructionCompletes : Obligations.EveryInstructionCompletes := by
  unfold Obligations.EveryInstructionCompletes
  intro i s hs hb
  rw [← requestLines_eq_none_iff s.cfg s.ntx.bl]
  cases hls : requestLines s.cfg s.ntx.bl i with
  | none =>
    exact ⟨_, by rw [exec_idle hs.1, hls], rfl, rfl, .inr rfl, by simp [statusIllegal]⟩
  | some ls =>
    obtain ⟨t, hexec, h, -, -⟩ := exec_responds hs hls (okAnswers_mono (requestLines_writeCount hls) hb)
    exact ⟨t, hexec, h.free.1, h.rspValid, .inl h.rspStatus, by simp [h.rspStatus, statusOk]⟩

/-- A nibble of a byte sets neither E nor RW. -/
theorem nibble_controlClear {p : Params} (hp : p.Wf) (b : Byte) (rs : Bool) :
    WellFormed.controlClear p (hiNibble p b rs) = true ∧ WellFormed.controlClear p (loNibble p b rs) = true := by
  obtain ⟨hrsRw, hrsE, -⟩ := hp
  simp [WellFormed.controlClear, hiNibble_controlBit, loNibble_controlBit, Ne.symm hrsRw, Ne.symm hrsE]

theorem requestLines_wrnib {p : Params} {v : Byte} (hv : WellFormed.controlClear p v = true) (bl : Bool) :
    requestLines p bl (.wrnib v) = some (pulseLines p bl v) := by
  simp [requestLines, (illegalOperand_eq_false_iff p v).mpr hv]

@[simp] theorem okEvents_append (ls ms : List Line) : okEvents (ls ++ ms) = okEvents ls ++ okEvents ms := by
  induction ls with
  | nil => rfl
  | cons l ls ih => cases l <;> simp [okEvents, ih]

@[simp] theorem okEvents_byteLines (p : Params) (bl : Bool) (b : Byte) (rs : Bool) :
    okEvents (byteLines p bl b rs) = byteEvents p bl b rs := by
  simp [byteLines, byteEvents]

/-- Settles O31: each WRNIB adds the events of its pulse, and leaves `BL`, the parameters and the further answers to the next. -/
theorem nibblePairIsByte : Obligations.NibblePairIsByte := by
  unfold Obligations.NibblePairIsByte
  intro s b rs hs hp hb
  obtain ⟨hhi, hlo⟩ := nibble_controlClear hp b rs
  obtain ⟨t, hexec, ht, htbl, htbus⟩ := exec_responds hs (requestLines_wrnib hhi _)
    (okAnswers_mono (by rw [writeCount_pulseLines]; omega) hb)
  obtain ⟨u, hexec', hu, -, -⟩ := exec_responds (i := .wrnib (loNibble s.cfg b rs)) ht.free
    (requestLines_wrnib (by rwa [ht.cfg]) _)
    (by simpa [htbus, ht.cfg] using okAnswers_drop (by simpa [two_mul] using hb))
  obtain ⟨v, hexec'', hv, -, -⟩ := exec_responds hs (requestLines_byteRequest s.cfg s.ntx.bl rs b)
    (by simpa using hb)
  refine ⟨t, u, v, hexec, hexec', hexec'', ?_, hu.rspStatus, hv.rspStatus⟩
  simp [hu.trace, ht.trace, hv.trace, ht.cfg, htbl, blAfter, byteEvents]

end AllOk

end Sys2Proof.Machine

/-! PROOFS. Resets of NTX (R157, R158, R160, R162): a reset that falls into a request abandons it with the first part of its events,
at each of its lines; one that finds NTX IDLE has the host bring `BL` into line with its flag. -/

namespace Sys2Proof.Machine

/-! ## A line with no reset due -/

section NotDue

variable {s : State} {v : Byte} {n : Nat} {ls : List Line} {a : BusAnswer} {as : List BusAnswer}

/-! A line before which no reset is due goes its own way, and one event slot passes (log 1). -/

theorem run_write_ok_notDue (hr : s.rstIn.head? ≠ some 0) (hb : s.busIn = a :: as) (ha : a.wrOk = true) :
    run (.write v :: ls) s = run ls (writeOk v { tick s with busIn := as }) := by
  conv_lhs => unfold run
  split
  · simp_all
  · simp [hb, busResult, ha]

theorem run_write_err_notDue (hr : s.rstIn.head? ≠ some 0) (hb : s.busIn = a :: as) (ha : a.wrOk = false) :
    run (.write v :: ls) s = writeErr v a.wrErr { tick s with busIn := as } := by
  conv_lhs => unfold run
  split
  · simp_all
  · simp [hb, busResult, ha]

theorem run_write_wait_notDue (hr : s.rstIn.head? ≠ some 0) (hb : s.busIn = []) :
    run (.write v :: ls) s = awaitBus v (.write v :: ls) (tick s) := by
  conv_lhs => unfold run
  split
  · simp_all
  · simp [hb]

theorem run_startDelay_notDue (hr : s.rstIn.head? ≠ some 0) :
    run (.startDelay n :: ls) s = run ls (startDelay n (tick s)) := by
  conv_lhs => unfold run
  split
  · simp_all
  · rfl

theorem run_endDelay_notDue (hr : s.rstIn.head? ≠ some 0) :
    run (.endDelay n :: ls) s = run ls (endDelay n (tick s)) := by
  conv_lhs => unfold run
  split
  · simp_all
  · rfl

end NotDue

/-! ## A reset within a request (R158) -/

/-- NTX has been reset: IDLE, with no response, no write outstanding and no timer running; the pins and the controller's mode are
UNKNOWN, and `later` are the resets still to come. -/
structure WasReset (later : List Nat) (t : State) : Prop where
  fsm : t.ntx.fsm = .idle
  rspValid : t.ntx.rspValid = false
  busWr : t.ntx.busWr = none
  tmr : t.ntx.tmr = none
  pins : t.rcv.pins = none
  mode : t.rcv.mode = .unknown
  rstIn : t.rstIn = later

section Reset

variable {s t : State} {ls : List Line} {i : Instr}

theorem abandon_wasReset (l : Line) (s : State) : WasReset s.rstIn.tail (abandon l s) := by
  cases l <;> exact ⟨rfl, rfl, rfl, rfl, rfl, rfl, rfl⟩

/-- From `s` to `t` no reset has come: the schedule is as long as it was, and, after the next reset, the same. -/
def NoResetYet (s t : State) : Prop := t.rstIn.length = s.rstIn.length ∧ t.rstIn.tail = s.rstIn.tail

theorem NoResetYet.tick {u : State} (h : NoResetYet s t) (hu : u.rstIn = t.rstIn.modifyHead (· - 1)) : NoResetYet s u := by
  obtain ⟨hlen, htail⟩ := h
  refine ⟨by simpa [hu] using hlen, ?_⟩
  rw [hu, ← htail]
  cases t.rstIn <;> rfl

/-- A request after which the schedule of resets is shorter has been abandoned. -/
theorem run_wasReset (h : (run ls s).rstIn.length < s.rstIn.length) : WasReset s.rstIn.tail (run ls s) := by
  have same {t : State} (hn : NoResetYet s t) (hlt : t.rstIn.length < s.rstIn.length) : WasReset s.rstIn.tail t :=
    absurd hn.1 (by omega)
  refine run_elim (I := fun _ t => NoResetYet s t)
    (Q := fun t => t.rstIn.length < s.rstIn.length → WasReset s.rstIn.tail t)
    ?done ?reset ?wait ?ok ?err ?start ?stop ls s ⟨rfl, rfl⟩ h
  case done => exact fun t hn => same hn
  case reset => exact fun l ls t hn _ _ => hn.2 ▸ abandon_wasReset l t
  case wait => exact fun v ls t hn _ _ => same (hn.tick rfl)
  case ok => exact fun v ls t a as hn _ _ _ => hn.tick rfl
  case err => exact fun v ls t a as hn _ _ _ => same (hn.tick rfl)
  case start => exact fun n ls t hn _ => hn.tick rfl
  case stop => exact fun n ls t hn _ => hn.tick (by simp)

/-- Whatever resets are to come, a request makes a first part of the events it makes with none. -/
theorem lineEvents_prefix (ls : List Line) (as : List BusAnswer) (rst : List Nat) :
    lineEvents ls as rst <+: lineEvents ls as [] := by
  induction ls generalizing as rst with
  | nil => exact List.prefix_rfl
  | cons l ls ih =>
    by_cases hr : rst.head? = some 0
    · simp [lineEvents, hr]
    · cases l with
      | write v =>
        cases as with
        | nil => simp [lineEvents, hr]
        | cons a as => cases ha : a.wrOk <;> simp [lineEvents, hr, ha, ih]
      | startDelay n => simp [lineEvents, hr, ih]
      | endDelay n => simpa [lineEvents, hr] using ih as _

/-- Settles O3: the lines stop at the reset, with a first part of their events; a request without lines meets no reset. -/
theorem resetAbandonsAnyRequest : Obligations.ResetAbandonsAnyRequest := by
  unfold Obligations.ResetAbandonsAnyRequest
  intro i s t u hidle ht hshort hu
  obtain ⟨-, rfl⟩ | ⟨ls, hls, rfl⟩ := exec_idle_cases hidle ht
  · simp at hshort
  · obtain ⟨hfsm, hvalid, hbus, htmr, hpins, hmode, hrst⟩ :=
      run_wasReset (s := prepared i (accept (encodeRequest i) s)) (by simpa using hshort)
    have htrace := exec_idle_trace hidle hls ht
    have hutrace : u.trace = s.trace ++ lineEvents ls s.busIn [] :=
      exec_idle_trace (s := { s with rstIn := [] }) hidle hls hu
    refine ⟨hfsm, hvalid, by simp [hbus], htmr, hpins, hmode, by simpa using hrst, ?_, ?_⟩
    · exact htrace ▸ List.prefix_append _ _
    · rw [htrace, hutrace]
      exact (List.prefix_append_right_inj _).mpr (lineEvents_prefix ls _ _)

/-- A reset that is due after the lines `pre`, whose writes are answered `ok`, abandons the request at the line after them, with
their events. -/
theorem run_resetAfter {pre post : List Line} {l : Line} {later : List Nat} (hr : s.rstIn = pre.length :: later)
    (hb : okAnswers (writeCount pre) s.busIn = true) :
    WasReset later (run (pre ++ l :: post) s) ∧ (run (pre ++ l :: post) s).trace = s.trace ++ okEvents pre := by
  induction pre generalizing s with
  | nil =>
    rw [List.nil_append, run_reset (by simp [hr])]
    exact ⟨by simpa [hr] using abandon_wasReset l s, by simp [okEvents]⟩
  | cons m pre ih =>
    have hnot : s.rstIn.head? ≠ some 0 := by simp [hr]
    cases m with
    | write v =>
      obtain ⟨a, as, has, ha, hb⟩ := okAnswers_cons hb
      obtain ⟨hreset, htrace⟩ := ih (s := writeOk v { tick s with busIn := as }) (by simp [hr]) hb
      rw [List.cons_append, run_write_ok_notDue hnot has ha]
      exact ⟨hreset, htrace.trans (by simp [okEvents])⟩
    | startDelay n =>
      obtain ⟨hreset, htrace⟩ := ih (s := startDelay n (tick s)) (by simp [hr]) hb
      rw [List.cons_append, run_startDelay_notDue hnot]
      exact ⟨hreset, htrace.trans (by simp [okEvents])⟩
    | endDelay n =>
      obtain ⟨hreset, htrace⟩ := ih (s := endDelay n (tick s)) (by simp [hr]) (by rwa [endDelay_busIn])
      rw [List.cons_append, run_endDelay_notDue hnot]
      exact ⟨hreset, htrace.trans (by simp [okEvents])⟩

/-- A pulse's lines cut before line `k`, its events up to there, and its writes. -/
theorem pulseLines_cut {p : Params} (hs : p.settle = false) (bl : Bool) (v : Byte) {k : Nat} (hk : k < 6) :
    ∃ pre l post, pulseLines p bl v = pre ++ l :: post ∧ pre.length = k ∧ writeCount pre ≤ 2 ∧
      okEvents pre = (pulseEvents p bl v).take ([0, 1, 2, 2, 3, 4].getD k 0) := by
  have hlen : (pulseLines p bl v).length = 6 := by simp [pulseLines, delayLines, hs]
  refine ⟨(pulseLines p bl v).take k, (pulseLines p bl v)[k], (pulseLines p bl v).drop (k + 1), ?_, ?_, ?_, ?_⟩
  · simp
  · simp [hlen]; omega
  · interval_cases k <;> simp [pulseLines, delayLines, hs, writeCount]
  · interval_cases k <;> simp [pulseLines, delayLines, pulseEvents, hs, okEvents]

/-- Settles O4: the pulse is cut before line `k`, and `run_resetAfter` says what is left. -/
theorem resetInsidePulse : Obligations.ResetInsidePulse := by
  unfold Obligations.ResetInsidePulse
  intro s v k later hidle hr hk hsettle hv hb
  obtain ⟨pre, l, post, hlines, hlen, hcount, hevents⟩ := pulseLines_cut hsettle s.ntx.bl v hk
  have hrst : (prepared (.wrnib v) (accept (encodeRequest (.wrnib v)) s)).rstIn = pre.length :: later := by
    rw [prepared_rstIn, accept_rstIn, hr, hlen]
  obtain ⟨hreset, htrace⟩ := run_resetAfter (l := l) (post := post) hrst
    (by simpa using okAnswers_mono hcount hb)
  refine ⟨_, exec_wrnib_legal hidle hv, ?_⟩
  rw [hlines, htrace, hevents]
  exact ⟨by simp, hreset.fsm, hreset.rspValid, hreset.tmr, hreset.pins, hreset.rstIn⟩

end Reset

/-! ## A reset, and what the host then does (R157, R162) -/

section Realign

variable {s t : State}

/-- The host notices a reset before it does anything else. -/
theorem step_noticesReset (hidle : t.ntx.fsm = .idle) (hr : t.rstIn = []) (hseen : t.rstSeen = true) :
    step t = .next { t with drv := t.drv.afterReset, rstSeen := false } := by
  rw [step_noReset (by simp [hr]), hidle]
  simp [hostTurn, hseen, noticeReset, runTurn, tick_none hr]

/-- A driver with no operation in progress, and its flag as `BL` is after a reset, has nothing to do about it. -/
theorem Driver.afterReset_aligned {d : Driver} (hjob : d.job = none) (hflag : d.backlight = true) : d.afterReset = d := by
  obtain ⟨life, backlight, displayOn, cursorOn, blinkOn, job, result⟩ := d
  obtain rfl : job = none := hjob
  obtain rfl : backlight = true := hflag
  rfl

/-- The host, free, with nothing asked of it, leaves everything as it is. -/
theorem step_idles (hfree : t.HostFree) (hin : t.hostIn = []) : step t = .next t := by
  obtain ⟨⟨hidle, hr⟩, hseen, hjob⟩ := hfree
  rw [step_hostsTurn ⟨hidle, by simp [hr], hseen⟩, hjob, tick_none hr]
  simp [takeInput, hin, runTurn]

/-- With a true flag there is nothing to realign: from then on the machine stays as it is. -/
theorem run_noRealignment (hfree : t.Free) (hseen : t.rstSeen = true) (hjob : t.drv.job = none)
    (hflag : t.drv.backlight = true) (hin : t.hostIn = []) (k : Nat) :
    Host.Core.run core (k + 1) t = .next { t with rstSeen := false } := by
  obtain ⟨hidle, hr⟩ := hfree
  have hnotice : step t = .next { t with rstSeen := false } := by
    rw [step_noticesReset hidle hr hseen, Driver.afterReset_aligned hjob hflag]
  rw [run_succ_of_step hnotice]
  exact run_of_step_self (step_idles (t := { t with rstSeen := false }) ⟨⟨hidle, hr⟩, rfl, hjob⟩ hin) k

/-- With a false flag the host issues `SETBL 0`, as an operation of its own (R162; log 13). -/
theorem run_realignment (hfree : t.Free) (hseen : t.rstSeen = true) (hjob : t.drv.job = none)
    (hflag : t.drv.backlight = false) (hb : okAnswers 1 t.busIn = true) :
    ∃ u, Host.Core.run core 3 t = .next u ∧ u.ntx.req = encodeRequest (.setbl false) ∧ u.ntx.bl = false ∧
      u.trace = t.trace ++ [.write 0x00#8 .ok] ∧ u.drv = t.drv.finished := by
  obtain ⟨a, as, has, ha, -⟩ := okAnswers_cons hb
  have hdrv : t.drv.afterReset = t.drv.busy [issueLine (.setbl false)] false := by
    simp [Driver.afterReset, hjob, hflag, realignLines, Driver.busy]
  have hnotice := step_noticesReset hfree.1 hfree.2 hseen
  rw [hdrv] at hnotice
  have hcont : State.Continues { t with drv := t.drv.busy [issueLine (.setbl false)] false, rstSeen := false }
      [issueLine (.setbl false)] := ⟨hfree, rfl, false, rfl, .inl rfl⟩
  obtain ⟨u, hrun, htrace, hreq, hbl, -, hend⟩ := hcont.run_setbl has
  exact ⟨u, (run_succ_of_step hnotice 2).trans hrun, hreq, hbl, by simpa [backlightByte, busResult, ha] using htrace,
    by simpa [ha] using hend⟩

/-- Settles O2: the step is `resetNtx`; the host, with no operation in progress, then waits or realigns `BL`. -/
theorem resetTakesEffect : Obligations.ResetTakesEffect := by
  unfold Obligations.ResetTakesEffect
  intro s hdue
  refine ⟨resetNtx s, step_reset hdue, rfl, rfl, rfl, rfl, rfl, rfl, rfl, rfl, rfl, rfl, rfl, rfl, rfl, rfl,
    fun hr hjob hflag hin k => ?waits, fun hr hjob hflag hb => ?realigns⟩
  case waits => exact run_noRealignment (t := resetNtx s) ⟨rfl, by simp [hr]⟩ rfl hjob hflag hin k
  case realigns =>
    obtain ⟨u, hrun, hreq, hbl, htrace, hdrv⟩ := run_realignment (t := resetNtx s) ⟨rfl, by simp [hr]⟩ rfl hjob hflag hb
    refine ⟨u, hrun, hreq.trans (by decide), hbl, htrace, fun hlife => ?_⟩
    simp [hdrv, Driver.finished, hlife, hjob]

end Realign

end Sys2Proof.Machine

/-! PROOFS. The requests run to their end, as whole next states: WRNIB, SENDCMD and SENDDATA (R91, R106, R107), the command bytes that
SENDCMD carries (R76), SETBL (R97 to R100); their first failing write (R108); the timer (R113); and that nothing outside the
receiver depends on it (R42). -/

namespace Sys2Proof.Machine

/-! ## WRNIB, SENDCMD and SENDDATA with every write answered `ok` -/

section WholeState

variable {s : State}

/-- Settles O15: the request runs one pulse, and the response ends it. -/
theorem wrnibPulse : Obligations.WrnibPulse := by
  unfold Obligations.WrnibPulse
  intro s v ⟨hidle, hr⟩ hv hb
  rw [exec_wrnib_legal hidle hv, run_lastPulse (by simp) (by simpa using hr) (by simpa using hb), encodeRequest_wrnib]
  rfl

/-- SENDCMD's and SENDDATA's words: `OP`, the must-be-zero bits, and the byte (R69). -/
theorem encodeRequest_byteRequest (rs : Bool) (b : Byte) :
    encodeRequest (byteRequest rs b) = (if rs then 0x030000#24 else 0x020000#24) ++ b := by
  cases rs with
  | false => exact encodeByteRequest_eq 0x02#8 b
  | true => exact encodeByteRequest_eq 0x03#8 b

theorem prepared_byteRequest (rs : Bool) (b : Byte) (s : State) : prepared (byteRequest rs b) s = beginPulse (.byte b rs) s := by
  cases rs <;> rfl

/-- A byte request in IDLE runs the lines of its two pulses. -/
theorem exec_byteRequest (hidle : s.ntx.fsm = .idle) (rs : Bool) (b : Byte) :
    exec (byteRequest rs b) s =
      .next (run (byteLines s.cfg s.ntx.bl b rs) (beginPulse (.byte b rs) (accept (encodeRequest (byteRequest rs b)) s))) := by
  rw [exec_idle hidle, requestLines_byteRequest, prepared_byteRequest]

/-- A byte request with every write answered `ok`: the whole next state. -/
theorem exec_byteRequest_sent (hs : s.Free) (hb : okAnswers (2 * pulseWrites s.cfg) s.busIn = true) (rs : Bool) (b : Byte) :
    exec (byteRequest rs b) s = .next (byteSent (encodeRequest (byteRequest rs b)) b rs s) := by
  obtain ⟨hidle, hr⟩ := hs
  rw [exec_byteRequest hidle, run_byteLines (by simp) (by simpa using hr) (by simpa using hb)]
  simp [byteSent, byteEvents, afterPulse, respond, latchStatus, accept, beginPulse, Ntx.completed, statusOk, two_mul]

/-- Settles O18: the two pulses, high nibble first, of SENDCMD and of SENDDATA. -/
theorem byteRequestsSendBothNibbles : Obligations.ByteRequestsSendBothNibbles := by
  unfold Obligations.ByteRequestsSendBothNibbles
  intro s b hs hb
  exact ⟨encodeRequest_byteRequest false b ▸ exec_byteRequest_sent hs hb false b,
    encodeRequest_byteRequest true b ▸ exec_byteRequest_sent hs hb true b⟩

/-! ## The command bytes, carried by SENDCMD (R76) -/

/-- A command is executed as the SENDCMD of its byte (log 9). -/
theorem exec_command {i : Instr} {b : Byte} (h : encodeCommand i = some b) (s : State) : exec i s = exec (.sendcmd b) s := by
  cases i with
  | wrnib v => cases h
  | sendcmd b => cases h
  | senddata b => cases h
  | setbl x => cases h
  | waitus n => cases h
  | illegal w => cases h
  | _ => obtain rfl := Option.some.inj h; rfl

/-- A command with every write answered `ok`: the whole next state. -/
theorem exec_command_sent {i : Instr} {b : Byte} (h : encodeCommand i = some b) (hs : s.Free)
    (hb : okAnswers (2 * pulseWrites s.cfg) s.busIn = true) :
    exec i s = .next (byteSent (0x020000#24 ++ b) b false s) := by
  rw [exec_command h]
  exact encodeRequest_byteRequest false b ▸ exec_byteRequest_sent hs hb false b

/-- Settles O26: each command is the SENDCMD of its byte, and each byte is composed of its operands. -/
theorem commandsAreCarriedBySendcmd : Obligations.CommandsAreCarriedBySendcmd := by
  unfold Obligations.CommandsAreCarriedBySendcmd
  intro s hs hb
  refine ⟨exec_command_sent (i := .clearDisplay) rfl hs hb, exec_command_sent (i := .returnHome) rfl hs hb,
    fun id sh => ⟨_, exec_command_sent rfl hs hb, ?_⟩, fun d c k => ⟨_, exec_command_sent rfl hs hb, displayControlBits d c k⟩,
    fun x => ⟨_, exec_command_sent rfl hs hb, ?_⟩, fun dl n f low => ⟨_, exec_command_sent rfl hs hb, ?_⟩,
    fun a => ⟨_, exec_command_sent rfl hs hb, ?_⟩, fun a => ⟨_, exec_command_sent rfl hs hb, ?_⟩⟩
  · revert id sh; decide
  · revert x; decide
  · revert dl n f low; decide
  · revert a; decide
  · revert a; decide

/-! ## The first failing write (R108) -/

/-- The lines make as many writes as there are of them. -/
theorem nthWrite_okEvents {n : Nat} {ls : List Line} (hn : n < writeCount ls) : ∃ v, nthWrite n (okEvents ls) = some v := by
  induction ls generalizing n with
  | nil => simp [writeCount] at hn
  | cons l ls ih =>
    cases l with
    | write v =>
      cases n with
      | zero => exact ⟨v, rfl⟩
      | succ n => exact ih (by simpa [writeCount] using hn)
    | startDelay m => cases n <;> exact ih hn
    | endDelay m => exact ih hn

/-- Settles O19: the lines of both pulses end at their first failing write. -/
theorem byteRequestsEndAtFailingWrite : Obligations.ByteRequestsEndAtFailingWrite := by
  unfold Obligations.ByteRequestsEndAtFailingWrite
  intro s b rs oks rest e ⟨hidle, hr⟩ hb hoks hn
  obtain ⟨v, hv⟩ := nthWrite_okEvents (ls := byteLines s.cfg s.ntx.bl b rs) (by simpa using hn)
  have hend := run_endsInBusError (s := beginPulse (.byte b rs) (accept (encodeRequest (byteRequest rs b)) s)) hr hb hoks hv
  rw [okEvents_byteLines] at hv hend
  exact ⟨_, v, exec_byteRequest hidle rs b, hv, by simpa using hend.trace, hend.rspStatus, hend.rspInfo, hend.errs,
    by simpa using hend.bl, hend.fsm, hend.rspValid, hend.pins, hend.mode, hend.ddram, hend.busIn⟩

/-! ## SETBL (R97 to R100) -/

/-- SETBL in IDLE writes `BL`, and has one write to make. -/
theorem exec_setbl (hidle : s.ntx.fsm = .idle) (x : Bool) :
    exec (.setbl x) s = .next (run [.write (backlightByte s.cfg x)] (prepared (.setbl x) (accept (encodeRequest (.setbl x)) s))) :=
  exec_idle hidle (.setbl x)

/-- Settles O20: the one line is a write, and the response follows it. -/
theorem setblRefreshes : Obligations.SetblRefreshes := by
  unfold Obligations.SetblRefreshes
  intro s x ⟨hidle, hr⟩ hb
  obtain ⟨a, as, has, ha, -⟩ := okAnswers_cons hb
  rw [exec_setbl hidle, run_write_ok (by simpa using hr) (by simpa using has) ha, has]
  rfl

/-- Settles O21: `BL` is written before the line runs; the line then waits, or fails. -/
theorem setblKeepsNewValueOnError : Obligations.SetblKeepsNewValueOnError := by
  unfold Obligations.SetblKeepsNewValueOnError
  intro s x ⟨hidle, hr⟩
  refine ⟨fun hb => ⟨_, exec_setbl hidle x, ?_⟩, fun e rest hb => ⟨_, exec_setbl hidle x, ?_⟩⟩
  · rw [run_write_wait (by simpa using hr) (by simpa using hb)]
    exact ⟨rfl, rfl, rfl⟩
  · rw [run_write_err (by simpa using hr) (by simpa using hb) rfl]
    exact ⟨rfl, rfl, rfl, rfl, rfl, rfl, rfl, rfl⟩

/-- From pins with E known to be low no write makes a falling edge (R57). -/
theorem Receiver.fallingEdge_low {p : Params} {r : Receiver} (h : r.pins.any (fun u => !u.getLsbD p.eBit.val) = true)
    (v : Byte) : r.fallingEdge p v = false := by
  cases hu : r.pins with
  | none => simp [hu] at h
  | some u =>
    have hlow : u.getLsbD p.eBit.val = false := by simpa [hu] using h
    rw [Receiver.fallingEdge_known hu, hlow, Bool.and_false]

/-- Settles O22: the check of R164 finds nothing, and the write makes no falling edge. -/
theorem setblMakesNoTransfer : Obligations.SetblMakesNoTransfer := by
  unfold Obligations.SetblMakesNoTransfer
  intro s x hs hlow hquiet hb
  refine ⟨_, setblRefreshes s x hs hb, ?_⟩
  have hcheck : s.rcv.beginRefresh s.now = s.rcv := if_neg (by omega)
  dsimp only
  rw [hcheck, Receiver.observe_noEdge (Receiver.fallingEdge_low hlow _)]

end WholeState

/-! ## The timer (R113, R114) -/

/-- Settles O24: the ticks are the quotient, rounded up. -/
theorem timerLastsLongEnough : Obligations.TimerLastsLongEnough := by
  unfold Obligations.TimerLastsLongEnough
  have hpred := Config.tickNsPred.isLt
  have hpos : 0 < Config.tickNs := Nat.succ_pos _
  refine ⟨hpos, by unfold Config.tickNs; omega, fun n => ?_⟩
  have hdiv : ticksFor n * Config.tickNs + (n * 1000 + Config.tickNsPred.val) % Config.tickNs =
      n * 1000 + Config.tickNsPred.val := Nat.div_add_mod' _ _
  have hmod := Nat.mod_lt (n * 1000 + Config.tickNsPred.val) hpos
  have hpred' : Config.tickNs = Config.tickNsPred.val + 1 := rfl
  omega

/-- Settles O14: in BUSY no request is taken. -/
theorem busyTakesNothing : Obligations.BusyTakesNothing := by
  unfold Obligations.BusyTakesNothing
  intro i s hbusy
  exact exec_busy hbusy i

/-- Settles O1: the fields of the one reset state. -/
theorem resetStateValues : Obligations.ResetStateValues := by
  unfold Obligations.ResetStateValues
  decide

end Sys2Proof.Machine

/-! PROOFS. A step of the host (R62, R118, R119): which code it has NTX execute, how an error response ends an operation, where it
stops the machine; and that neither NTX nor the host depends on the receiver (R42, R171). -/

namespace Sys2Proof.Machine

/-! ## What the host's turn gives NTX (R62, R73, R118) -/

section HostsTurn

variable {s : State}

/-- With no operation in progress the host takes up what it is asked next. -/
theorem step_takesInput (h : s.HostsTurn) (hjob : s.drv.job = none) : step s = runTurn (takeInput (tick s)) := by
  rw [step_hostsTurn h, hjob]

/-- An operation that awaits no response, or has an OK one, goes on with its next line. -/
theorem step_continuesJob {j : Job} (h : s.HostsTurn) (hjob : s.drv.job = some j)
    (hready : j.awaiting = false ∨ s.ntx.rspValid = true ∧ s.ntx.rspStatus = statusOk) :
    step s = runTurn (continueJob j.todo (tick s)) := by
  rw [step_hostsTurn h, hjob]
  cases haw : j.awaiting with
  | false => simp [haw]
  | true =>
    obtain ⟨hvalid, hstatus⟩ := hready.resolve_left (by simp [haw])
    simp [haw, hvalid, readResponse, rspStatusPort, hstatus]

/-- An operation whose response is there reads it. -/
theorem step_readsResponse {j : Job} (h : s.HostsTurn) (hjob : s.drv.job = some j) (haw : j.awaiting = true)
    (hvalid : s.ntx.rspValid = true) : step s = runTurn (readResponse j.todo (tick s)) := by
  rw [step_hostsTurn h, hjob]
  simp [haw, hvalid]

/-- A code with a meaning is executed as the instruction it decodes to (R73). -/
theorem runCode_instr {c : Code} {i : Instr} (h : decode s.cfg c = .instr i) : runCode c s = exec i s := by
  rw [runCode, h]

/-- A command byte of no row is passed to SENDCMD like any other (log 9). -/
theorem runCode_noRow {c : Code} {b : Byte} (h : decode s.cfg c = .noRow b) : runCode c s = exec (.sendcmd b) s := by
  rw [runCode, h]

/-- Settles O11: the code is taken from the queue and decoded. -/
theorem stepRunsDecodedInstruction : Obligations.StepRunsDecodedInstruction := by
  unfold Obligations.StepRunsDecodedInstruction
  intro s c rest hturn hjob hin
  have hstep : step s = runCode c { tick s with hostIn := rest } := by
    rw [step_takesInput hturn hjob]
    simp [takeInput, hin, runTurn]
  exact ⟨fun i hdec => hstep.trans (runCode_instr hdec), fun b hdec => hstep.trans (runCode_noRow hdec)⟩

/-- Settles O12: the next line of the operation issues its word, or the composite. -/
theorem driverIssuesRequest : Obligations.DriverIssuesRequest := by
  unfold Obligations.DriverIssuesRequest
  intro s j hturn hjob hready
  refine ⟨fun w rest htodo => ?_, fun rest htodo => ?_⟩
  · rw [step_continuesJob hturn hjob hready, htodo]
    rfl
  · rw [step_continuesJob hturn hjob hready, htodo]
    exact congrArg (fun i => exec i _) (decodeRequest_byteRequest s.cfg false (displayControlByte s.drv))

/-- Settles O50: the operation is refused as it is taken up. -/
theorem operationNeedsReady : Obligations.OperationNeedsReady := by
  unfold Obligations.OperationNeedsReady
  intro s o rest ⟨⟨hidle, hr⟩, hseen, hjob⟩ hin hlife
  rw [step_takesInput ⟨hidle, by simp [hr], hseen⟩ hjob]
  simp [takeInput, hin, startOp, hlife, runTurn]

/-- Settles O58: a status that is neither OK nor 3 ends the operation. -/
theorem errorResponseEndsOperation : Obligations.ErrorResponseEndsOperation := by
  unfold Obligations.ErrorResponseEndsOperation
  intro s todo hturn hjob hvalid hstatus
  have herror : s.ntx.rspStatus ≠ statusOk ∧ s.ntx.rspStatus ≠ 3#2 := by
    obtain hst | hst := hstatus <;> simp [hst, statusOk]
  obtain ⟨hok, hthree⟩ := herror
  rw [step_readsResponse hturn hjob rfl hvalid, readResponse, if_neg (by exact hok), if_neg (by exact hthree)]
  rfl

end HostsTurn

/-! ## Where a step stops the machine (R119, R132, R133, R135; U10) -/

section Stops

variable {s : State}

/-- The turn is a fault or a refusal. -/
def Turn.stops : Turn → Bool
  | .wait _ => false
  | .act _ => false
  | .give _ _ => false
  | .fault _ => true
  | .refuse _ => true

/-- No instruction stops the machine. -/
theorem exec_goes (i : Instr) (s : State) : Goes (exec i s) = true := by
  cases i <;> rfl

theorem runCode_goes (c : Code) (s : State) : Goes (runCode c s) = true := by
  unfold runCode
  split <;> exact exec_goes _ _

/-- What a turn comes to stops the machine exactly where the turn does. -/
theorem goes_runTurn (T : Turn) : Goes (runTurn T) = !T.stops := by
  cases T with
  | give c s => exact runCode_goes c s
  | _ => rfl

theorem continueJob_stops (todo : List HostLine) (s : State) : (continueJob todo s).stops = false := by
  rcases todo with _ | ⟨_ | _ | _, _⟩ <;> rfl

theorem readResponse_stops (todo : List HostLine) (s : State) : (readResponse todo s).stops = true ↔ s.ntx.rspStatus = 3#2 := by
  unfold readResponse
  split
  · rename_i hok
    simp [continueJob_stops, show s.ntx.rspStatus = 0#2 from hok]
  · split
    · simp [Turn.stops, show s.ntx.rspStatus = 3#2 from ‹_›]
    · simp [Turn.stops, failJob, show s.ntx.rspStatus ≠ 3#2 from ‹_›]

theorem setCursorPosition_stops (col row : Int) (s : State) :
    (setCursorPosition col row s).stops = (DriverOp.setCursorPosition col row).misused := by
  by_cases hrow : 0 ≤ row ∧ row ≤ 3
  · obtain ⟨r, rfl⟩ : ∃ r : Fin 4, row = (r.val : Int) := ⟨⟨row.toNat, by omega⟩, by simp [hrow.1]⟩
    by_cases hcol : 0 ≤ col ∧ (([0x00, 0x40, 0x14, 0x54].getD r.val 0 : Nat) : Int) + col ≤ 0x7F
    · rw [setCursorPosition_inside (rowBase_fin r) hcol]
      rw [rowBase_cast] at hcol
      have hfree : (DriverOp.setCursorPosition col r.val).misused = false := by
        rw [DriverOp.misused, Bool.not_eq_false', decide_eq_true_eq]
        exact ⟨hrow.1, hrow.2, hcol⟩
      exact hfree.symm
    · rw [setCursorPosition_outside (rowBase_fin r) hcol]
      rw [rowBase_cast] at hcol
      have hmisused : (DriverOp.setCursorPosition col r.val).misused = true := by
        rw [DriverOp.misused, Bool.not_eq_true', decide_eq_false_iff_not]
        exact fun ⟨_, _, h⟩ => hcol h
      exact hmisused.symm
  · rw [setCursorPosition_noRow (rowBase_outside (by omega))]
    simp only [DriverOp.misused, Turn.stops]
    simp; omega

theorem print_stops (text : List Nat) (s : State) : (print text s).stops = (DriverOp.print text).misused := by
  by_cases h : ∀ c ∈ text, c < 0x80
  · rw [print_sevenBit h]
    simpa [Turn.stops, startJob, DriverOp.misused] using h
  · rw [print_notSevenBit (by simpa using h)]
    simpa [Turn.stops, DriverOp.misused] using h

/-- An operation is stopped as it starts where the driver is not Ready, or is misused. -/
theorem startOp_stops (o : DriverOp) (s : State) :
    (startOp o s).stops = true ↔ s.drv.life ≠ .ready ∨ o.misused = true := by
  by_cases hlife : s.drv.life = .ready
  · unfold startOp
    rw [if_pos hlife]
    cases o with
    | setCursorPosition col row => simp [setCursorPosition_stops, hlife]
    | print text => simp [print_stops, hlife]
    | _ => simp [Turn.stops, startJob, DriverOp.misused, hlife]
  · simp [startOp, hlife, Turn.stops]

theorem takeInput_stops (s : State) :
    (takeInput s).stops = true ↔ ∃ o, s.hostIn.head? = some (.op o) ∧ (s.drv.life ≠ .ready ∨ o.misused = true) := by
  unfold takeInput
  split
  · simp [Turn.stops, *]
  · simp [Turn.stops, *]
  · simp [construct, startJob, Turn.stops, *]
  · simp [startOp_stops, *]

/-- Settles O13: only the host's turn can stop the machine, in what it takes up or in the response it reads. -/
theorem onlyTheHostStopsTheMachine : Obligations.OnlyTheHostStopsTheMachine := by
  unfold Obligations.OnlyTheHostStopsTheMachine
  refine ⟨exec_goes, fun s => ?_⟩
  by_cases hturn : s.HostsTurn
  case neg =>
    have hgoes : Goes (step s) = true := by
      by_cases hr : s.rstIn.head? = some 0
      · rw [step_reset hr]
        rfl
      · rw [step_noReset hr]
        cases hf : s.ntx.fsm with
        | busy => rfl
        | idle =>
          have hseen : s.rstSeen = true := by simpa using fun h => hturn ⟨hf, hr, h⟩
          simp [hostTurn, hseen, noticeReset, runTurn, Goes]
    simp [hgoes, hturn]
  case pos =>
    rw [step_hostsTurn hturn, goes_runTurn, Bool.not_eq_false', and_iff_right hturn]
    cases hjob : s.drv.job with
    | none => simp [takeInput_stops]
    | some j =>
      cases haw : j.awaiting with
      | false => simp [continueJob_stops, haw]
      | true =>
        cases hvalid : s.ntx.rspValid with
        | false => simp [Turn.stops, haw]
        | true => simp [readResponse_stops, haw]

end Stops

/-! ## Nothing outside the receiver depends on it (R42, R171) -/

/-- The state with another receiver. -/
def State.withReceiver (s : State) (r : Receiver) : State := { s with rcv := r }

/-- The turn with another receiver. -/
def Turn.withReceiver (T : Turn) (r : Receiver) : Turn :=
  match T with
  | .wait s => .wait (s.withReceiver r)
  | .act s => .act (s.withReceiver r)
  | .give c s => .give c (s.withReceiver r)
  | .fault f => .fault f
  | .refuse f => .refuse f

section ReceiverNotRead

variable {s t : State} {r : Receiver}

@[simp] theorem State.withReceiver_cfg (s : State) (r : Receiver) : (s.withReceiver r).cfg = s.cfg := rfl
@[simp] theorem State.withReceiver_ntx (s : State) (r : Receiver) : (s.withReceiver r).ntx = s.ntx := rfl
@[simp] theorem State.withReceiver_drv (s : State) (r : Receiver) : (s.withReceiver r).drv = s.drv := rfl
@[simp] theorem State.withReceiver_hostIn (s : State) (r : Receiver) : (s.withReceiver r).hostIn = s.hostIn := rfl
@[simp] theorem State.withReceiver_rstSeen (s : State) (r : Receiver) : (s.withReceiver r).rstSeen = s.rstSeen := rfl

theorem abandon_withReceiver (l : Line) (s : State) (r : Receiver) :
    ∃ r', abandon l (s.withReceiver r) = (abandon l s).withReceiver r' := by
  cases l <;> exact ⟨_, rfl⟩

theorem endDelay_withReceiver (n : Nat) (s : State) (r : Receiver) :
    endDelay n (s.withReceiver r) = (endDelay n s).withReceiver r := by
  cases hk : s.ntx.tmr <;> simp [State.withReceiver, endDelay, hk]

/-- A request's lines go the same way whatever the receiver is. -/
theorem run_withReceiver (ls : List Line) (s : State) (r : Receiver) :
    ∃ r', run ls (s.withReceiver r) = (run ls s).withReceiver r' := by
  induction ls generalizing s r with
  | nil => exact ⟨r, rfl⟩
  | cons l ls ih =>
    by_cases hr : s.rstIn.head? = some 0
    · rw [run_reset hr, run_reset (by exact hr)]
      exact abandon_withReceiver l s r
    · cases l with
      | write v =>
        obtain hb | ⟨a, as, hb⟩ := busIn_cases s
        · rw [run_write_wait_notDue hr hb, run_write_wait_notDue (by exact hr) (by exact hb)]
          exact ⟨r, rfl⟩
        · cases ha : a.wrOk with
          | false =>
            rw [run_write_err_notDue hr hb ha, run_write_err_notDue (by exact hr) (by exact hb) ha]
            exact ⟨_, rfl⟩
          | true =>
            rw [run_write_ok_notDue hr hb ha, run_write_ok_notDue (by exact hr) (by exact hb) ha]
            exact ih (writeOk v { tick s with busIn := as }) _
      | startDelay n =>
        rw [run_startDelay_notDue hr, run_startDelay_notDue (by exact hr)]
        exact ih (startDelay n (tick s)) r
      | endDelay n =>
        rw [run_endDelay_notDue hr, run_endDelay_notDue (by exact hr)]
        exact endDelay_withReceiver n (tick s) r ▸ ih (endDelay n (tick s)) r

theorem prepared_withReceiver (i : Instr) (w : Word) (s : State) (r : Receiver) :
    ∃ r', prepared i (accept w (s.withReceiver r)) = (prepared i (accept w s)).withReceiver r' := by
  cases i <;> exact ⟨_, rfl⟩

/-- An instruction ends the same whatever the receiver is. -/
theorem exec_withReceiver {i : Instr} (r : Receiver) (h : exec i s = .next t) :
    ∃ r', exec i (s.withReceiver r) = .next (t.withReceiver r') := by
  cases hf : s.ntx.fsm with
  | busy =>
    obtain rfl : s = t := by simpa [exec_busy hf] using h
    exact ⟨r, exec_busy (by exact hf) i⟩
  | idle =>
    have hexec := exec_idle (s := s.withReceiver r) hf i
    obtain ⟨hls, rfl⟩ | ⟨ls, hls, rfl⟩ := exec_idle_cases hf h
    · simp only [State.withReceiver_cfg, State.withReceiver_ntx, hls] at hexec
      exact ⟨r, hexec⟩
    · obtain ⟨r₁, hprep⟩ := prepared_withReceiver i (encodeRequest i) s r
      obtain ⟨r₂, hrun⟩ := run_withReceiver ls (prepared i (accept (encodeRequest i) s)) r₁
      exact ⟨r₂, by simp [hexec, hls, hprep, hrun]⟩

theorem runTurn_withReceiver {T : Turn} (r : Receiver) (h : runTurn T = .next t) :
    ∃ r', runTurn (T.withReceiver r) = .next (t.withReceiver r') := by
  cases T with
  | wait s =>
    obtain rfl := Host.Outcome.next.inj h
    exact ⟨r, rfl⟩
  | act s =>
    obtain rfl := Host.Outcome.next.inj h
    exact ⟨r, rfl⟩
  | give c s =>
    cases hdec : decode s.cfg c with
    | instr i =>
      obtain ⟨r', h'⟩ := exec_withReceiver r ((runCode_instr hdec).symm.trans h)
      exact ⟨r', (runCode_instr (s := s.withReceiver r) hdec).trans h'⟩
    | noRow b =>
      obtain ⟨r', h'⟩ := exec_withReceiver r ((runCode_noRow hdec).symm.trans h)
      exact ⟨r', (runCode_noRow (s := s.withReceiver r) hdec).trans h'⟩
  | fault f => cases h
  | refuse f => cases h

theorem continueJob_withReceiver (todo : List HostLine) (s : State) (r : Receiver) :
    continueJob todo (s.withReceiver r) = (continueJob todo s).withReceiver r := by
  rcases todo with _ | ⟨_ | _ | _, _⟩ <;> rfl

theorem readResponse_withReceiver (todo : List HostLine) (s : State) (r : Receiver) :
    readResponse todo (s.withReceiver r) = (readResponse todo s).withReceiver r := by
  by_cases hok : rspStatusPort s.ntx = statusOk
  · simp [readResponse, hok, continueJob_withReceiver]
  · by_cases hthree : rspStatusPort s.ntx = 3#2
    · simp [readResponse, hthree, statusOk, Turn.withReceiver]
    · unfold readResponse
      rw [State.withReceiver_ntx, if_neg hok, if_neg hthree, if_neg hok, if_neg hthree]
      rfl

theorem setCursorPosition_withReceiver (col row : Int) (s : State) (r : Receiver) :
    setCursorPosition col row (s.withReceiver r) = (setCursorPosition col row s).withReceiver r := by
  cases hrow : rowBase row with
  | none => simp only [setCursorPosition_noRow hrow, Turn.withReceiver]
  | some base =>
    by_cases hcol : 0 ≤ col ∧ base + col ≤ 0x7F
    · rw [setCursorPosition_inside hrow hcol, setCursorPosition_inside hrow hcol]
      rfl
    · rw [setCursorPosition_outside hrow hcol, setCursorPosition_outside hrow hcol]
      rfl

theorem print_withReceiver (text : List Nat) (s : State) (r : Receiver) :
    print text (s.withReceiver r) = (print text s).withReceiver r := by
  by_cases h : ∀ c ∈ text, c < 0x80
  · rw [print_sevenBit h, print_sevenBit h]
    rfl
  · rw [print_notSevenBit (by simpa using h), print_notSevenBit (by simpa using h)]
    rfl

theorem startOp_withReceiver (o : DriverOp) (s : State) (r : Receiver) :
    startOp o (s.withReceiver r) = (startOp o s).withReceiver r := by
  by_cases hlife : s.drv.life = .ready
  · unfold startOp
    rw [if_pos hlife, if_pos (by exact hlife)]
    cases o with
    | setCursorPosition col row => exact setCursorPosition_withReceiver col row s r
    | print text => exact print_withReceiver text s r
    | _ => rfl
  · simp [startOp, hlife, Turn.withReceiver]

theorem takeInput_withReceiver (s : State) (r : Receiver) :
    takeInput (s.withReceiver r) = (takeInput s).withReceiver r := by
  rcases hin : s.hostIn with _ | ⟨_ | _ | o, rest⟩
  · simp only [takeInput, State.withReceiver_hostIn, hin]
    rfl
  · simp only [takeInput, State.withReceiver_hostIn, hin]
    rfl
  · simp only [takeInput, State.withReceiver_hostIn, hin]
    rfl
  · simp only [takeInput, State.withReceiver_hostIn, hin]
    exact startOp_withReceiver o { s with hostIn := rest } r

/-- The host's turn is the same whatever the receiver is. -/
theorem hostTurn_withReceiver (s : State) (r : Receiver) : hostTurn (s.withReceiver r) = (hostTurn s).withReceiver r := by
  cases hseen : s.rstSeen with
  | true =>
    simp only [hostTurn, State.withReceiver_rstSeen, hseen, if_true]
    rfl
  | false =>
    cases hjob : s.drv.job with
    | none => simpa [hostTurn, hseen, hjob] using takeInput_withReceiver s r
    | some j =>
      cases haw : j.awaiting with
      | false => simp [hostTurn, hseen, hjob, haw, continueJob_withReceiver]
      | true =>
        cases hvalid : s.ntx.rspValid with
        | false => simp [hostTurn, hseen, hjob, haw, hvalid, Turn.withReceiver]
        | true => simp [hostTurn, hseen, hjob, haw, hvalid, readResponse_withReceiver]

/-- Settles O43: a reset, the lines still to run, and the host's turn each go the same way with any receiver. -/
theorem receiverIsNeverRead : Obligations.ReceiverIsNeverRead := by
  unfold Obligations.ReceiverIsNeverRead
  intro s t r h
  by_cases hr : s.rstIn.head? = some 0
  · obtain rfl : resetNtx s = t := by simpa [step_reset hr] using h
    exact ⟨_, step_reset (s := { s with rcv := r }) hr⟩
  · have hstep := step_noReset (s := s.withReceiver r) hr
    rw [step_noReset hr] at h
    cases hf : s.ntx.fsm with
    | busy =>
      obtain rfl : resume s = t := by simpa [hf] using h
      obtain ⟨r', hrun⟩ := run_withReceiver s.ntx.todo s r
      exact ⟨r', hstep.trans (by rw [show (s.withReceiver r).ntx.fsm = .busy from hf]; exact congrArg _ hrun)⟩
    | idle =>
      simp only [hf] at h
      obtain ⟨r', hturn⟩ := runTurn_withReceiver r h
      refine ⟨r', hstep.trans ?_⟩
      rw [show (s.withReceiver r).ntx.fsm = .idle from hf]
      exact (congrArg runTurn (hostTurn_withReceiver (tick s) r)).trans hturn

end ReceiverNotRead

end Sys2Proof.Machine

/-! PROOFS. A driver operation, run line by line with every write answered `ok` (R118, R120 to R131): what it makes of the driver, of
`BL`, of the trace, of the time and of the receiver, as a function of its lines; and so SetDisplayOn, SetCursor and SetBlink, Clear
and Home, and Initialize. -/

namespace Sys2Proof.Machine

/-! ## What the receiver sees of a request -/

/-- What the receiver sees of the lines of a request, from time `now` on, with every write answered `ok`. -/
def seeLines (p : Params) (now : Nat) : List Line → Receiver → Receiver
  | [], r => r
  | .write v :: ls, r => seeLines p now ls (r.observe p now v)
  | .startDelay _ :: ls, r => seeLines p now ls r
  | .endDelay n :: ls, r => seeLines p (now + n) ls r

/-- What the checks at the start of a request leave of the receiver; `own` says that Initialize is running (logs 11, 16). -/
def startRcv (p : Params) (own : Bool) (now : Nat) (i : Instr) (r : Receiver) : Receiver :=
  match i with
  | .wrnib v => r.beginPulse p now (.nibble v own)
  | .sendcmd b => r.beginPulse p now (.byte b false)
  | .senddata b => r.beginPulse p now (.byte b true)
  | .setbl _ => r.beginRefresh now
  | .waitus _ => r
  | .illegal _ => r
  | i => r.beginPulse p now (.byte (commandByte i) false)

section Sees

variable {s t : State} {ls : List Line} {i : Instr}

theorem prepared_rcv (i : Instr) (s : State) :
    (prepared i s).rcv = startRcv s.cfg (s.drv.life == .initializing) s.now i s.rcv := by
  cases i <;> rfl

@[simp] theorem prepared_now (i : Instr) (s : State) : (prepared i s).now = s.now := by cases i <;> rfl

/-- With every write answered `ok` the receiver sees all the lines, and their delays pass. -/
theorem run_sees (hpair : pairedDelays ls = true) (hr : s.rstIn = []) (hb : okAnswers (writeCount ls) s.busIn = true) :
    (run ls s).rcv = seeLines s.cfg s.now ls s.rcv ∧ (run ls s).now = s.now + delaysLeft ls := by
  induction ls using pairedDelays.induct generalizing s with
  | case1 => exact ⟨rfl, rfl⟩
  | case2 v ls ih =>
    obtain ⟨a, as, has, ha, hb⟩ := okAnswers_cons hb
    rw [run_write_ok hr has ha]
    exact ih (s := writeOk v { s with busIn := as }) hpair hr hb
  | case3 n m ls ih =>
    obtain ⟨rfl, hpair'⟩ : n = m ∧ pairedDelays ls = true := by simpa [pairedDelays] using hpair
    have hrun := run_delayLines (n := n) (ls := ls) hr
    rw [delayLines, List.cons_append, List.cons_append, List.nil_append] at hrun
    rw [hrun]
    obtain ⟨hrcv, hnow⟩ := ih (s := { s with
      ntx := { s.ntx with tmr := none }, trace := s.trace ++ [.delay n], now := s.now + n }) hpair' hr hb
    exact ⟨hrcv, hnow.trans (Nat.add_assoc _ _ _)⟩
  | case4 n ls hne =>
    cases ls with
    | nil => cases hpair
    | cons l ls =>
      cases l with
      | endDelay m => exact absurd rfl (hne m ls)
      | write v => cases hpair
      | startDelay m => cases hpair
  | case5 n ls => cases hpair

/-- From `s` to `t` NTX has executed `i`, whose lines are `ls`, with every write answered `ok`. -/
structure Executed (s t : State) (i : Instr) (ls : List Line) : Prop extends Responds s t statusOk (okEvents ls) where
  bl : t.ntx.bl = blAfter i s.ntx.bl
  busIn : t.busIn = s.busIn.drop (writeCount ls)
  rcv : t.rcv = seeLines s.cfg s.now ls (startRcv s.cfg (s.drv.life == .initializing) s.now i s.rcv)
  now : t.now = s.now + delaysLeft ls

theorem exec_executed (hs : s.Free) (hls : requestLines s.cfg s.ntx.bl i = some ls)
    (hb : okAnswers (writeCount ls) s.busIn = true) : ∃ t, exec i s = .next t ∧ Executed s t i ls := by
  obtain ⟨t, hexec, h, hbl, hbus⟩ := exec_responds hs hls hb
  obtain ⟨hidle, hr⟩ := hs
  obtain rfl : run ls (prepared i (accept (encodeRequest i) s)) = t := by simpa [exec_idle hidle, hls] using hexec
  obtain ⟨hrcv, hnow⟩ := run_sees (s := prepared i (accept (encodeRequest i) s)) (requestLines_paired hls)
    (by simpa using hr) (by simpa using hb)
  refine ⟨_, hexec, { toResponds := h, bl := hbl, busIn := hbus, rcv := ?_, now := by simpa using hnow }⟩
  simpa [prepared_rcv] using hrcv

end Sees

/-! ## What an operation's lines make -/

/-- What an operation changes. -/
structure OpView where
  bl : Bool
  rspStatus : BitVec 2
  drv : Driver
  trace : List Event
  now : Nat
  rcv : Receiver

/-- The state as an operation sees it; that the operation is in progress is left out. -/
def State.view (s : State) : OpView :=
  { bl := s.ntx.bl, rspStatus := s.ntx.rspStatus, drv := { s.drv with job := none }, trace := s.trace, now := s.now, rcv := s.rcv }

/-- The lines of a request that has some. -/
def linesOf (p : Params) (bl : Bool) (i : Instr) : List Line := (requestLines p bl i).getD []

/-- What a request makes, with every write answered `ok`. -/
def OpView.request (p : Params) (i : Instr) (x : OpView) : OpView :=
  { bl := blAfter i x.bl
    rspStatus := statusOk
    drv := x.drv
    trace := x.trace ++ okEvents (linesOf p x.bl i)
    now := x.now + delaysLeft (linesOf p x.bl i)
    rcv := seeLines p x.now (linesOf p x.bl i) (startRcv p (x.drv.life == .initializing) x.now i x.rcv) }

/-- The request that a line of an operation issues. -/
def HostLine.request (p : Params) (d : Driver) : HostLine → Option Instr
  | .issue w => some (decodeRequest p w)
  | .setDisplayOn _ => none
  | .sendDisplayControl => some (.sendcmd (displayControlByte d))

/-- What a line of an operation makes. -/
def OpView.line (p : Params) (x : OpView) : HostLine → OpView
  | .issue w => x.request p (decodeRequest p w)
  | .setDisplayOn b => { x with drv := { x.drv with displayOn := b } }
  | .sendDisplayControl => x.request p (.sendcmd (displayControlByte x.drv))

/-- How many writes a request makes. -/
def requestWrites (p : Params) : Instr → Nat
  | .wrnib _ => pulseWrites p
  | .setbl _ => 1
  | .waitus _ => 0
  | .illegal _ => 0
  | _ => 2 * pulseWrites p

/-- How many writes a line of an operation makes. -/
def HostLine.writes (p : Params) : HostLine → Nat
  | .issue w => requestWrites p (decodeRequest p w)
  | .setDisplayOn _ => 0
  | .sendDisplayControl => 2 * pulseWrites p

/-- The line issues no ILLEGAL request. -/
def HostLine.legal (p : Params) : HostLine → Prop
  | .issue w => ∀ bl, requestLines p bl (decodeRequest p w) ≠ none
  | .setDisplayOn _ => True
  | .sendDisplayControl => True

section Lines

variable {s t : State} {rest lines : List HostLine} {i : Instr} {ls : List Line}

theorem requestWrites_eq {p : Params} {bl : Bool} (h : requestLines p bl i = some ls) : writeCount ls = requestWrites p i := by
  cases i with
  | wrnib v =>
    obtain ⟨-, rfl⟩ : illegalOperand p v = false ∧ pulseLines p bl v = ls := by simpa [requestLines] using h
    exact writeCount_pulseLines p bl v
  | setbl x =>
    obtain rfl := Option.some.inj h
    rfl
  | waitus n =>
    obtain rfl := Option.some.inj h
    by_cases hn : n = 0#24 <;> simp [waitLines, hn, delayLines, writeCount, requestWrites]
  | illegal w => cases h
  | _ =>
    obtain rfl := Option.some.inj h
    exact writeCount_byteLines p bl _ _

/-- The next line of an operation that issues a request: it is executed as its word decodes (R118). -/
theorem State.Continues.step_request {l : HostLine} (h : s.Continues (l :: rest)) (hl : l.request s.cfg s.drv = some i) :
    step s = exec i { s with drv := s.drv.busy rest true } := by
  rw [h.step_eq]
  cases l with
  | issue w =>
    obtain rfl := Option.some.inj hl
    rfl
  | setDisplayOn x => cases hl
  | sendDisplayControl =>
    obtain rfl := Option.some.inj hl
    exact congrArg (fun i => exec i { s with drv := s.drv.busy rest true })
      (decodeRequest_byteRequest s.cfg false (displayControlByte s.drv))

/-- A request of an operation, with every write answered `ok`. -/
theorem State.Continues.request_done {l : HostLine} (h : s.Continues (l :: rest)) (hl : l.request s.cfg s.drv = some i)
    (hlegal : requestLines s.cfg s.ntx.bl i ≠ none) {n : Nat} (hb : okAnswers (requestWrites s.cfg i + n) s.busIn = true) :
    ∃ t, step s = .next t ∧ t.Continues rest ∧ t.view = s.view.request s.cfg i ∧ t.cfg = s.cfg ∧ t.hostIn = s.hostIn ∧
      okAnswers n t.busIn = true := by
  obtain ⟨ls, hls⟩ := Option.ne_none_iff_exists'.mp hlegal
  have hwrites := requestWrites_eq hls
  obtain ⟨t, hexec, ht⟩ := exec_executed (s := { s with drv := s.drv.busy rest true }) h.free hls
    (okAnswers_mono (by omega) hb)
  have hlines : linesOf s.cfg s.ntx.bl i = ls := by simp [linesOf, hls]
  refine ⟨t, (h.step_request hl).trans hexec, ht.toResponds.continues rfl h.rstSeen rfl, ?_, ht.cfg, ht.hostIn, ?_⟩
  · simp [State.view, OpView.request, ht.bl, ht.rspStatus, ht.drv, ht.trace, ht.now, ht.rcv, hlines, Driver.busy]
  · rw [ht.busIn, hwrites]
    exact okAnswers_drop hb

/-- One line of an operation, with every write answered `ok`. -/
theorem State.Continues.line_done {l : HostLine} (h : s.Continues (l :: rest)) (hlegal : l.legal s.cfg) {n : Nat}
    (hb : okAnswers (l.writes s.cfg + n) s.busIn = true) :
    ∃ t, step s = .next t ∧ t.Continues rest ∧ t.view = s.view.line s.cfg l ∧ t.cfg = s.cfg ∧ t.hostIn = s.hostIn ∧
      okAnswers n t.busIn = true := by
  cases l with
  | issue w => exact h.request_done rfl (hlegal s.ntx.bl) hb
  | setDisplayOn x =>
    exact ⟨_, h.step_eq, ⟨h.free, h.rstSeen, false, rfl, .inl rfl⟩, rfl, rfl, rfl, by simpa [HostLine.writes] using hb⟩
  | sendDisplayControl => exact h.request_done rfl nofun hb

/-- An operation with every write answered `ok` takes one step a line, and one more in which it returns (R118, R119). -/
theorem State.Continues.run_lines (h : s.Continues lines) (hlegal : ∀ l ∈ lines, l.legal s.cfg)
    (hb : okAnswers ((lines.map (HostLine.writes s.cfg)).sum) s.busIn = true) :
    ∃ t, Host.Core.run core (lines.length + 1) s = .next t ∧ t.hostIn = s.hostIn ∧
      t.drv = ((lines.foldl (OpView.line s.cfg) s.view).drv).finished ∧
      t.view = { lines.foldl (OpView.line s.cfg) s.view with drv := t.drv } := by
  induction lines generalizing s with
  | nil => exact ⟨_, run_succ_of_step h.step_nil 0, rfl, rfl, rfl⟩
  | cons l lines ih =>
    obtain ⟨hl, hlines⟩ := List.forall_mem_cons.mp hlegal
    obtain ⟨u, hstep, hu, hview, hcfg, hin, hbus⟩ := h.line_done hl (by simpa using hb)
    obtain ⟨t, hrun, hin', hdrv, hview'⟩ := ih hu (by rwa [hcfg]) (by rwa [hcfg])
    rw [hview, hcfg] at hdrv hview'
    exact ⟨t, (run_succ_of_step hstep _).trans hrun, hin'.trans hin, hdrv, hview'⟩

end Lines

/-! ## SetDisplayOn, SetCursor, SetBlink, Clear and Home (R127 to R131) -/

section ReadyDriver

variable {s : State} {o : DriverOp}

@[simp] theorem linesOf_sendcmd (p : Params) (bl : Bool) (b : Byte) : linesOf p bl (.sendcmd b) = byteLines p bl b false := rfl

@[simp] theorem linesOf_waitus (p : Params) (bl : Bool) (n : BitVec 24) : linesOf p bl (.waitus n) = waitLines n := rfl

@[simp] theorem linesOf_setbl (p : Params) (bl x : Bool) : linesOf p bl (.setbl x) = [.write (backlightByte p x)] := rfl

theorem okEvents_waitLines {n : BitVec 24} (hn : n ≠ 0#24) : okEvents (waitLines n) = [.delay n.toNat] := by
  simp [waitLines, hn, delayLines, okEvents]

@[simp] theorem decodeRequest_sendcmd (p : Params) (b : Byte) : decodeRequest p (encodeRequest (.sendcmd b)) = .sendcmd b :=
  decodeRequest_byteRequest p false b

/-- R71, R73: the waits of the Display Driver fit every width that R8 allows. -/
theorem decodeRequest_waitus {p : Params} (hp : p.Wf) {n : BitVec 24} (hn : n.toNat < 2 ^ 20) :
    decodeRequest p (encodeRequest (.waitus n)) = .waitus n := by
  obtain ⟨-, -, -, -, -, -, -, -, hbits, -⟩ := hp
  exact (requestRow_waitus (hn.trans_le (Nat.pow_le_pow_right (by omega) hbits))).decodeRequest_eq

/-- A Ready driver that has taken up an operation with its flags at `d` runs the operation's lines. -/
theorem State.Asked.run_lines (h : s.Asked o) {lines : List HostLine} {d : Driver} (hready : d.life = .ready)
    (hstep : step s = .next (started lines d s)) (hlegal : ∀ l ∈ lines, l.legal s.cfg)
    (hb : okAnswers ((lines.map (HostLine.writes s.cfg)).sum) s.busIn = true)
    (hdrv : (lines.foldl (OpView.line s.cfg) (started lines d s).view).drv = { d with job := none }) :
    ∃ t, Host.Core.run core (lines.length + 2) s = .next t ∧ t.drv = { d with job := none, result := .ok } ∧
      t.trace = (lines.foldl (OpView.line s.cfg) (started lines d s).view).trace ∧
      t.ntx.bl = (lines.foldl (OpView.line s.cfg) (started lines d s).view).bl := by
  obtain ⟨t, hrun, -, hend, hview⟩ := (h.started_continues lines d).run_lines hlegal hb
  refine ⟨t, (run_succ_of_step hstep _).trans hrun, ?_, congrArg OpView.trace hview, congrArg OpView.bl hview⟩
  exact hend.trans ((congrArg Driver.finished hdrv).trans (Driver.finished_ready hready rfl))

/-- A Ready driver writes the flag, and has one composite to send (R127 to R129). -/
theorem State.Asked.step_flagSetter (h : s.Asked o) {d : Driver} {x : Bool}
    (ho : o = .setDisplayOn x ∧ d = { s.drv with displayOn := x } ∨ o = .setCursor x ∧ d = { s.drv with cursorOn := x } ∨
      o = .setBlink x ∧ d = { s.drv with blinkOn := x }) :
    step s = .next (started [.sendDisplayControl] d s) ∧ d.life = .ready ∧ d.job = none := by
  have hready := h.ready
  obtain ⟨⟨-, -, hjob⟩, -⟩ := id h
  rw [h.step_eq]
  unfold startOp
  rw [if_pos hready]
  obtain ⟨rfl, rfl⟩ | ⟨rfl, rfl⟩ | ⟨rfl, rfl⟩ := ho <;> exact ⟨rfl, hready, hjob⟩

/-- Settles O53: the one line sends the composite of the flags as they now are. -/
theorem flagSettersSendComposite : Obligations.FlagSettersSendComposite := by
  unfold Obligations.FlagSettersSendComposite
  intro s o d x hs ho hb
  obtain ⟨hstep, hready, hjob⟩ := hs.step_flagSetter ho
  obtain ⟨t, hrun, hdrv, htrace, hbl⟩ := hs.run_lines hready hstep (by simp [HostLine.legal]) (by simpa [HostLine.writes] using hb) rfl
  refine ⟨t, hrun, ?_, hbl, by rw [hdrv, ← hjob]⟩
  exact htrace.trans (congrArg (s.trace ++ ·) (okEvents_byteLines _ _ _ _))

/-- A Ready driver asked for Clear or Home has a command to send, and then to wait (R130, R131). -/
theorem State.Asked.step_clearOrHome (h : s.Asked o) {b : Byte} (ho : o = .clear ∧ b = 0x01#8 ∨ o = .home ∧ b = 0x02#8) :
    step s = .next (started [issueLine (.sendcmd b), issueLine (.waitus 2000#24)] s.drv s) := by
  have hready := h.ready
  rw [h.step_eq]
  unfold startOp
  rw [if_pos hready]
  obtain ⟨rfl, rfl⟩ | ⟨rfl, rfl⟩ := ho <;> rfl

/-- Settles O54: the command's events, and then the wait's. -/
theorem clearAndHomeWait : Obligations.ClearAndHomeWait := by
  unfold Obligations.ClearAndHomeWait
  intro s o b hs hp ho hb
  have hwait : decodeRequest s.cfg (encodeRequest (.waitus 2000#24)) = .waitus 2000#24 := decodeRequest_waitus hp (by decide)
  obtain ⟨t, hrun, hdrv, htrace, -⟩ := hs.run_lines hs.ready (hs.step_clearOrHome ho)
    (by simp [issueLine, HostLine.legal, hwait, requestLines])
    (by simpa [issueLine, HostLine.writes, hwait, requestWrites] using hb)
    (by simp [issueLine, OpView.line, OpView.request, hwait, started, State.view, Driver.busy])
  obtain ⟨⟨-, -, hjob⟩, -⟩ := hs
  refine ⟨t, hrun, htrace.trans ?_, by rw [hdrv, ← hjob]⟩
  simp [issueLine, OpView.line, OpView.request, hwait, started, State.view, okEvents_waitLines]

end ReadyDriver

end Sys2Proof.Machine

/-! PROOFS. Initialize (R119 to R123): construction starts it, and its lines, with every write answered `ok`, make the fixed trace
and a Ready driver. -/

namespace Sys2Proof.Machine

section Initialize

variable {p : Params} {s : State} {rest : List HostInput}

/-- Initialize but for the SETBL of P_INIT_BL_WRITE. -/
def initializeRest : List HostLine := issueLine (.waitus 1000000#24) :: (syncLines ++ configLines)

/-- The SETBL of P_INIT_BL_WRITE, if there is one. -/
def initializeFirst (p : Params) : List HostLine := if p.initBlWrite then [issueLine (.setbl true)] else []

theorem initializeLines_eq (p : Params) : initializeLines p = initializeFirst p ++ initializeRest := by
  simp [initializeLines, initializeFirst, initializeRest]

/-- An operand with no control bit set is one of WRNIB's (R90). -/
theorem controlClear_data (p : Params) (n : Nibble) : WellFormed.controlClear p (n ++ 0#4) = true := by
  have hlow : ∀ (n : Nibble) (k : Fin 4), (n ++ 0#4).getLsbD k.val = false := by decide
  simp [WellFormed.controlClear, hlow]

theorem controlClear_sync (p : Params) : WellFormed.controlClear p 0x30#8 = true := controlClear_data p 3#4

theorem controlClear_switch (p : Params) : WellFormed.controlClear p 0x20#8 = true := controlClear_data p 2#4

theorem decodeRequest_wrnib {v : Byte} (hv : WellFormed.controlClear p v = true) :
    decodeRequest p (encodeRequest (.wrnib v)) = .wrnib v :=
  (requestRow_encodeRequest (i := .wrnib v) rfl hv).decodeRequest_eq

theorem linesOf_wrnib {v : Byte} (hv : WellFormed.controlClear p v = true) (bl : Bool) :
    linesOf p bl (.wrnib v) = pulseLines p bl v := by
  simp [linesOf, requestLines_wrnib hv]

/-- The words that Initialize issues decode to its requests. -/
structure InitializeDecodes (p : Params) : Prop where
  sync : decodeRequest p (encodeRequest (.wrnib 0x30#8)) = .wrnib 0x30#8
  switch : decodeRequest p (encodeRequest (.wrnib 0x20#8)) = .wrnib 0x20#8
  powerOn : decodeRequest p (encodeRequest (.waitus 1000000#24)) = .waitus 1000000#24
  long : decodeRequest p (encodeRequest (.waitus 4500#24)) = .waitus 4500#24
  short : decodeRequest p (encodeRequest (.waitus 150#24)) = .waitus 150#24
  clear : decodeRequest p (encodeRequest (.waitus 2000#24)) = .waitus 2000#24

theorem initializeDecodes (hp : p.Wf) : InitializeDecodes p where
  sync := decodeRequest_wrnib (controlClear_sync p)
  switch := decodeRequest_wrnib (controlClear_switch p)
  powerOn := decodeRequest_waitus hp (by decide)
  long := decodeRequest_waitus hp (by decide)
  short := decodeRequest_waitus hp (by decide)
  clear := decodeRequest_waitus hp (by decide)

theorem initializeLines_legal (hp : p.Wf) : ∀ l ∈ initializeLines p, l.legal p := by
  obtain ⟨hsync, hswitch, hpowerOn, hlong, hshort, hclear⟩ := initializeDecodes hp
  cases hbl : p.initBlWrite <;>
    simp [initializeLines, hbl, syncLines, configLines, clearLines, homeLines, issueLine, HostLine.legal, hsync, hswitch,
      hpowerOn, hlong, hshort, hclear, requestLines, (illegalOperand_eq_false_iff p _).mpr (controlClear_sync p),
      (illegalOperand_eq_false_iff p _).mpr (controlClear_switch p)]

/-- Initialize makes 14 pulses (R172), and the write of its SETBL. -/
theorem initializeLines_writes (hp : p.Wf) :
    ((initializeLines p).map (HostLine.writes p)).sum = (if p.initBlWrite then 1 else 0) + 14 * pulseWrites p := by
  obtain ⟨hsync, hswitch, hpowerOn, hlong, hshort, hclear⟩ := initializeDecodes hp
  cases hbl : p.initBlWrite <;>
    simp [initializeLines, hbl, syncLines, configLines, clearLines, homeLines, issueLine, HostLine.writes, hsync, hswitch,
      hpowerOn, hlong, hshort, hclear, requestWrites] <;> omega

/-- The trace of Initialize after its SETBL (R120 to R123, R172). -/
def initializeEvents (p : Params) (bl : Bool) : List Event :=
  [.delay 1000000] ++ pulseEvents p bl 0x30#8 ++ [.delay 4500] ++ pulseEvents p bl 0x30#8 ++ [.delay 4500] ++
    pulseEvents p bl 0x30#8 ++ [.delay 150] ++ pulseEvents p bl 0x20#8 ++ byteEvents p bl 0x28#8 false ++
    byteEvents p bl 0x0C#8 false ++ byteEvents p bl 0x01#8 false ++ [.delay 2000] ++ byteEvents p bl 0x06#8 false ++
    byteEvents p bl 0x02#8 false ++ [.delay 2000]

/-- What Initialize makes after its SETBL, the receiver and the time left out. -/
theorem initializeRest_view (hp : p.Wf) {x : OpView} (hdrv : x.drv = { Driver.reset with life := .initializing }) :
    (initializeRest.foldl (OpView.line p) x).trace = x.trace ++ initializeEvents p x.bl ∧
      (initializeRest.foldl (OpView.line p) x).bl = x.bl ∧
      (initializeRest.foldl (OpView.line p) x).rspStatus = statusOk ∧
      (initializeRest.foldl (OpView.line p) x).drv = { x.drv with displayOn := true } := by
  obtain ⟨hsync, hswitch, hpowerOn, hlong, hshort, hclear⟩ := initializeDecodes hp
  have hcomposite : displayControlByte { Driver.reset with life := .initializing, displayOn := true } = 0x0C#8 := rfl
  simp [initializeRest, syncLines, configLines, clearLines, homeLines, issueLine, OpView.line, OpView.request, hsync, hswitch,
    hpowerOn, hlong, hshort, hclear, blAfter, linesOf_wrnib (controlClear_sync p), linesOf_wrnib (controlClear_switch p),
    okEvents_waitLines, hdrv, hcomposite, initializeEvents]

/-- What the SETBL of P_INIT_BL_WRITE makes, the receiver left out (R120). -/
theorem initializeFirst_view (p : Params) (x : OpView) (hbl : p.initBlWrite = true) :
    (initializeFirst p).foldl (OpView.line p) x = x.request p (.setbl true) := by
  simp [initializeFirst, hbl, issueLine, OpView.line]

/-- The state once construction has been taken up (R119). -/
def constructing (rest : List HostInput) (s : State) : State :=
  { s with hostIn := rest, drv := Driver.busy { Driver.reset with life := .initializing } (initializeLines s.cfg) false }

/-- A free host that is asked to construct a driver starts Initialize (R119). -/
theorem step_constructs (hs : s.HostFree) (hin : s.hostIn = .construct :: rest) : step s = .next (constructing rest s) := by
  obtain ⟨⟨hidle, hr⟩, hseen, hjob⟩ := hs
  rw [step_takesInput ⟨hidle, by simp [hr], hseen⟩ hjob, tick_none hr]
  simp only [takeInput, hin]
  rfl

theorem constructing_continues (hs : s.HostFree) : (constructing rest s).Continues (initializeLines s.cfg) := by
  obtain ⟨hfree, hseen, -⟩ := hs
  exact ⟨hfree, hseen, false, rfl, .inl rfl⟩

/-- What Initialize makes of what an operation sees. -/
def initializeView (s : State) : OpView :=
  (initializeLines s.cfg).foldl (OpView.line s.cfg) (constructing [] s).view

/-- How many steps construction takes: one to take it up, one a line, and one to return. -/
theorem initializeLines_length (p : Params) : (initializeLines p).length + 2 = if p.initBlWrite then 19 else 18 := by
  cases hbl : p.initBlWrite <;> simp [initializeLines, hbl, syncLines, configLines, clearLines, homeLines]

/-- Construction with every write answered `ok` runs Initialize. -/
theorem run_construct (hs : s.HostFree) (hin : s.hostIn = .construct :: rest) (hp : s.cfg.Wf)
    (hb : okAnswers ((if s.cfg.initBlWrite then 1 else 0) + 14 * pulseWrites s.cfg) s.busIn = true) :
    ∃ t, Host.Core.run core (if s.cfg.initBlWrite then 19 else 18) s = .next t ∧ t.hostIn = rest ∧
      t.drv = (initializeView s).drv.finished ∧ t.view = { initializeView s with drv := t.drv } := by
  obtain ⟨t, hrun, hin', hdrv, hview⟩ := (constructing_continues (rest := rest) hs).run_lines (initializeLines_legal hp)
    (by rw [show (constructing rest s).cfg = s.cfg from rfl, initializeLines_writes hp]; exact hb)
  rw [← initializeLines_length]
  exact ⟨t, (run_succ_of_step (step_constructs hs hin) _).trans hrun, hin', hdrv, hview⟩

/-- Settles O59: construction takes up Initialize, whose lines make the fixed trace, with `BL` as the first SETBL leaves it. -/
theorem initializeRunsTheFixedSequence : Obligations.InitializeRunsTheFixedSequence := by
  unfold Obligations.InitializeRunsTheFixedSequence
  intro s rest bl hs hin hp hbl hb
  obtain ⟨t, hrun, hin', hdrv, hview⟩ := run_construct hs hin hp hb
  have hfold : initializeView s = initializeRest.foldl (OpView.line s.cfg)
      ((initializeFirst s.cfg).foldl (OpView.line s.cfg) (constructing [] s).view) := by
    rw [initializeView, initializeLines_eq, List.foldl_append]
  have hfirst : ((initializeFirst s.cfg).foldl (OpView.line s.cfg) (constructing [] s).view).drv =
      { Driver.reset with life := .initializing } ∧
      ((initializeFirst s.cfg).foldl (OpView.line s.cfg) (constructing [] s).view).bl = bl ∧
      ((initializeFirst s.cfg).foldl (OpView.line s.cfg) (constructing [] s).view).trace =
        s.trace ++ (if s.cfg.initBlWrite then [.write (BitVec.twoPow 8 s.cfg.blBit.val) .ok] else []) := by
    cases hw : s.cfg.initBlWrite with
    | false => simp [initializeFirst, hw, hbl, constructing, State.view, Driver.busy, Driver.reset]
    | true =>
      rw [initializeFirst_view _ _ hw]
      simp [hw, hbl, OpView.request, blAfter, constructing, State.view, Driver.busy, Driver.reset, okEvents, backlightByte,
        lineMask]
  obtain ⟨hdrv₀, hbl₀, htrace₀⟩ := hfirst
  obtain ⟨htrace, hbl₁, hstatus, hdrv₁⟩ := initializeRest_view hp hdrv₀
  rw [← hfold] at htrace hbl₁ hstatus hdrv₁
  refine ⟨t, hrun, ?_, hin', ?_, ?_, ?_⟩
  · rw [hdrv, hdrv₁, hdrv₀]
    rfl
  · exact (congrArg OpView.bl hview).trans (hbl₁.trans hbl₀)
  · exact (congrArg OpView.rspStatus hview).trans hstatus
  · refine (congrArg OpView.trace hview).trans (htrace.trans ?_)
    rw [htrace₀, hbl₀]
    simp [initializeEvents]

end Initialize

end Sys2Proof.Machine

/-! PROOFS. The receiver in step (R50, R58, R106): a byte request delivers its byte to it as one instruction or as data, and each
command leaves what R76 to R79 say. -/

namespace Sys2Proof.Machine

/-! ## What an executed byte leaves alone -/

section Executed

variable {p : Params} {now : Nat} {rs : Bool} {b : Byte} {r : Receiver}

/-- What a command does to the controller (R76 to R79). -/
def Receiver.command (p : Params) (now : Nat) (i : Instr) (r : Receiver) : Receiver :=
  match i with
  | .clearDisplay => r.clearDisplay p now
  | .returnHome => r.returnHome p now
  | .entryModeSet id s => r.entryModeSet id s
  | .displayControl d c b => r.displayControl d c b
  | .cursorShift _ => r.cursorShift
  | .functionSet dl n f _ => r.functionSet dl n f
  | .setCGRamAddr _ => r.setCGRamAddr
  | .setDDRamAddr a => r.setDDRamAddr a
  | _ => r

/-- The controller executes the command whose byte it takes (R58, R76). -/
theorem Receiver.takeCommand_command {i : Instr} (hi : encodeCommand i = some b) : r.takeCommand p now b = r.command p now i := by
  rw [Receiver.takeCommand, decodeCommand_of_encodeCommand hi]
  cases i <;> rfl

@[simp] theorem Receiver.takeCommand_contentLost (p : Params) (now : Nat) (b : Byte) (r : Receiver) :
    (r.takeCommand p now b).contentLost = r.contentLost := by
  unfold Receiver.takeCommand
  split
  · rfl
  · split <;> rfl

@[simp] theorem Receiver.takeCommand_executed (p : Params) (now : Nat) (b : Byte) (r : Receiver) :
    (r.takeCommand p now b).executed = r.executed := by
  unfold Receiver.takeCommand
  split
  · rfl
  · split <;> rfl

@[simp] theorem Receiver.takeData_contentLost (b : Byte) (r : Receiver) : (r.takeData b).contentLost = r.contentLost := by
  unfold Receiver.takeData
  split <;> rfl

@[simp] theorem Receiver.takeData_executed (b : Byte) (r : Receiver) : (r.takeData b).executed = r.executed := by
  unfold Receiver.takeData
  split <;> rfl

/-- The byte is FunctionSet's (R79). -/
theorem functionSet_bits {dl n f : Bool} {low : BitVec 2} (h : decodeCommand b = .instr (.functionSet dl n f low)) :
    b.getLsbD 7 = false ∧ b.extractLsb' 5 3 = 1#3 := by
  obtain rfl := Option.some.inj (encodeCommand_of_decodeCommand h)
  revert dl n f low
  decide

/-- Only FunctionSet changes the framing (log 10), a byte of no row included (log 15). -/
theorem Receiver.takeCommand_framing (h : b.getLsbD 7 = true ∨ b.extractLsb' 5 3 ≠ 1#3) :
    (r.takeCommand p now b).mode = r.mode ∧ (r.takeCommand p now b).phase = r.phase := by
  unfold Receiver.takeCommand
  split
  · exact ⟨rfl, rfl⟩
  · rename_i i hi
    cases i with
    | functionSet dl n f low =>
      obtain ⟨hbit, hfield⟩ := functionSet_bits hi
      simp_all
    | _ => exact ⟨rfl, rfl⟩

@[simp] theorem Receiver.executeByte_contentLost (p : Params) (now : Nat) (rs : Bool) (b : Byte) (r : Receiver) :
    (r.executeByte p now rs b).contentLost = r.contentLost := by
  cases rs <;> simp [Receiver.executeByte]

@[simp] theorem Receiver.executeByte_executed (p : Params) (now : Nat) (rs : Bool) (b : Byte) (r : Receiver) :
    (r.executeByte p now rs b).executed = r.executed ++ [⟨rs, b⟩] := by
  cases rs <;> simp [Receiver.executeByte]

@[simp] theorem Receiver.takeByte_contentLost (p : Params) (now : Nat) (rs : Bool) (b : Byte) (r : Receiver) :
    (r.takeByte p now rs b).contentLost = r.contentLost := by
  obtain ⟨-, h⟩ | ⟨-, h⟩ := r.takeByte_cases p now rs b
  · exact h ▸ r.executeByte_contentLost p now rs b
  · exact h ▸ r.executeByte_contentLost p now rs b

/-- Once Initialize is under way or over, a byte is executed and known (R162). -/
theorem Receiver.takeByte_eq (h : r.setup ≠ .missing) : r.takeByte p now rs b = r.executeByte p now rs b := by
  obtain ⟨hm, -⟩ | ⟨-, h'⟩ := r.takeByte_cases p now rs b
  · exact absurd hm h
  · exact h'

end Executed

/-! ## Two pulses to a controller that expects a high half (R58) -/

/-- What the receiver sees of a byte request that starts at time `now` with every write `ok` (R106, R107). -/
def Receiver.seeByte (p : Params) (now : Nat) (bl : Bool) (b : Byte) (rs : Bool) (r : Receiver) : Receiver :=
  (r.seePulse p now bl (hiNibble p b rs)).seePulse p (now + p.tEh + p.tPost) bl (loNibble p b rs)

/-- The controller as it takes the second half of a byte: what the requests' pulses have moved, the rest as it was. -/
def Receiver.halfTaken (u : Option Byte) (d : Nat) (h : Nibble) (busy : Nat) (r : Receiver) : Receiver :=
  { r with pins := u, draws := d, high := h, phase := .high, busyUntil := busy }

section Byte

variable {p : Params} {now : Nat} {bl rs : Bool} {b v : Byte} {r : Receiver}

theorem hiNibble_e (hp : p.Wf) : (overlay p bl (hiNibble p b rs)).getLsbD p.eBit.val = false := by
  rw [overlay_e hp]
  exact (controlClear_iff.mp (nibble_controlClear hp b rs).1).1

theorem loNibble_e (hp : p.Wf) : (overlay p bl (loNibble p b rs)).getLsbD p.eBit.val = false := by
  rw [overlay_e hp]
  exact (controlClear_iff.mp (nibble_controlClear hp b rs).2).1

/-- RS reaches the controller with the second half (R105). -/
theorem loNibble_rs (hp : p.Wf) : (overlay p bl (loNibble p b rs)).getLsbD p.rsBit.val = rs := by
  rw [overlay_rs hp]
  simp [loNibble_controlBit]

/-- A byte's two pulses to a controller that is ready and expects a high half: it takes the byte, in the second (R58, log 11). -/
theorem Receiver.seeByte_taken (hp : p.Wf) (hmode : r.mode = .bit4) (hphase : r.phase = .high) (hbusy : r.busyUntil ≤ now)
    (hpins : p.settle = false ∨ r.pins.any (fun u => !u.getLsbD p.eBit.val) = true) :
    ∃ u d h, r.seeByte p now bl b rs =
      { (r.halfTaken u d h (now + p.tEh + p.tPost + p.tEh + p.tPost)).takeByte p (now + p.tEh + p.tPost + p.tEh) rs b with
        pins := some (overlay p bl (loNibble p b rs)) } := by
  obtain ⟨d₁, u₁, h₁⟩ := Receiver.seePulse_transfer (now := now) (r := r) (hiNibble_e (bl := bl) (b := b) (rs := rs) hp) hpins
  rw [Receiver.transfer_high (by exact hmode) (by exact hphase) (by exact hbusy.trans (Nat.le_add_right _ _))] at h₁
  obtain ⟨d₂, u₂, h₂⟩ := Receiver.seePulse_transfer (now := now + p.tEh + p.tPost)
    (r := r.seePulse p now bl (hiNibble p b rs)) (loNibble_e (bl := bl) (b := b) (rs := rs) hp)
    (.inr (by simp [h₁, hiNibble_e hp]))
  have hready : max r.busyUntil (now + p.tEh + p.tPost) ≤ now + p.tEh + p.tPost + p.tEh := by omega
  have hbyte : dataLines (hiNibble p b rs) ++ dataLines (loNibble p b rs) = b := by
    rw [dataLines_hiNibble, dataLines_loNibble]
    exact (BitVec.extractLsb'_append_extractLsb'_eq_extractLsb' rfl).trans BitVec.extractLsb'_eq_self
  refine ⟨u₂, d₂, dataLines (hiNibble p b rs), ?_⟩
  rw [Receiver.seeByte, h₂, h₁]
  rw [Receiver.transfer_low (by exact hmode) rfl (by exact hready)]
  simp [Receiver.halfTaken, loNibble_rs hp, hbyte, show max (max r.busyUntil (now + p.tEh + p.tPost))
    (now + p.tEh + p.tPost + p.tEh + p.tPost) = now + p.tEh + p.tPost + p.tEh + p.tPost by omega]

end Byte

/-! ## A byte request to a controller in step -/

section InStep

variable {s : State} {b : Byte} {rs : Bool}

/-- The start of a byte request that finds the controller in step is no breach (R164, R169). -/
theorem State.InStep.beginPulse (h : s.InStep) (b : Byte) (rs : Bool) :
    s.rcv.beginPulse s.cfg s.now (.byte b rs) = s.rcv.note s.cfg s.now .between [] .complete := by
  obtain ⟨-, hmode, hphase, hbusy, hquiet, hpairing, -, hsetup⟩ := h
  have hready : ¬ s.now < max s.rcv.busyUntil s.rcv.quietUntil := by omega
  simp [Receiver.beginPulse, hready, Receiver.nextPairing, hmode, hpairing, hphase, Receiver.nextRow, PulseRequest.isSync,
    Receiver.nextSetup, hsetup]

/-- The controller as it takes the byte of a request that found it in step. -/
def State.inStepTaken (s : State) (u : Option Byte) (d : Nat) (h : Nibble) : Receiver :=
  (s.rcv.note s.cfg s.now .between [] .complete).halfTaken u d h (s.now + s.cfg.tEh + s.cfg.tPost + s.cfg.tEh + s.cfg.tPost)

/-- The time at which the controller takes the byte: `T_POST` before the request's end. -/
def State.takenAt (s : State) : Nat := s.now + s.cfg.tEh + s.cfg.tPost + s.cfg.tEh

/-- A byte request that finds the controller in step: the controller executes the byte (R58). -/
theorem State.InStep.byteSent_rcv (h : s.InStep) (hp : s.cfg.Wf) (w : Word) (b : Byte) (rs : Bool) :
    ∃ u d n, (byteSent w b rs s).rcv =
      { (s.inStepTaken u d n).executeByte s.cfg s.takenAt rs b with
        pins := some (overlay s.cfg s.ntx.bl (loNibble s.cfg b rs)) } := by
  have hbegin := h.beginPulse b rs
  obtain ⟨hlow, hmode, hphase, hbusy, -⟩ := h
  obtain ⟨u, d, n, hsee⟩ := Receiver.seeByte_taken (r := s.rcv.note s.cfg s.now .between [] .complete) (now := s.now)
    (bl := s.ntx.bl) (b := b) (rs := rs) hp hmode hphase hbusy (.inr hlow)
  refine ⟨u, d, n, ?_⟩
  rw [← Receiver.takeByte_eq (show (s.inStepTaken u d n).setup ≠ .missing from nofun)]
  exact (congrArg (fun r => Receiver.seeByte s.cfg s.now s.ntx.bl b rs r) hbegin).trans hsee

/-- A command to a controller in step: the controller executes it (R58, R76). -/
theorem State.InStep.exec_command {i : Instr} (h : s.InStep) (hs : s.Free) (hp : s.cfg.Wf)
    (hb : okAnswers (2 * pulseWrites s.cfg) s.busIn = true) (hi : encodeCommand i = some b) :
    ∃ t u d n v, exec i s = .next t ∧ t.now = s.takenAt + s.cfg.tPost ∧
      t.rcv = { Receiver.command s.cfg s.takenAt i { s.inStepTaken u d n with executed := s.rcv.executed ++ [⟨false, b⟩] } with
        pins := some v } := by
  obtain ⟨u, d, n, hrcv⟩ := h.byteSent_rcv hp (0x020000#24 ++ b) b false
  refine ⟨_, u, d, n, overlay s.cfg s.ntx.bl (loNibble s.cfg b false), exec_command_sent hi hs hb, rfl, hrcv.trans ?_⟩
  rw [← Receiver.takeCommand_command hi]
  rfl

/-- Settles O44: the byte is executed once, as an instruction. -/
theorem sendcmdIsDelivered : Obligations.SendcmdIsDelivered := by
  unfold Obligations.SendcmdIsDelivered
  intro s b hs hp h hb
  obtain ⟨u, d, n, hrcv⟩ := h.byteSent_rcv hp (encodeRequest (.sendcmd b)) b false
  have hmode := h.2.1
  refine ⟨_, exec_byteRequest_sent hs hb false b, ?_, ?_, fun hset => ?_⟩
  · exact (congrArg Receiver.executed hrcv).trans (Receiver.executeByte_executed _ _ _ _ _)
  · exact (congrArg Receiver.contentLost hrcv).trans (Receiver.executeByte_contentLost _ _ _ _ _)
  · obtain ⟨hm, hph⟩ := Receiver.takeCommand_framing (p := s.cfg) (now := s.takenAt)
      (r := { s.inStepTaken u d n with executed := (s.inStepTaken u d n).executed ++ [⟨false, b⟩] }) hset
    exact ⟨(congrArg Receiver.mode hrcv).trans (hm.trans hmode), (congrArg Receiver.phase hrcv).trans hph⟩

/-- Settles O45: each command's own operation writes its register, and leaves the others (log 10). -/
theorem registerCommandsTakeEffect : Obligations.RegisterCommandsTakeEffect := by
  unfold Obligations.RegisterCommandsTakeEffect
  intro s hs hp h hb
  have hmode := h.2.1
  refine ⟨fun d c k => ?display, fun id sh => ?entry, fun dl n f low => ?function, fun a => ?address⟩
  case display =>
    obtain ⟨t, _, _, _, _, hexec, -, hrcv⟩ := h.exec_command hs hp hb (i := .displayControl d c k) rfl
    exact ⟨t, hexec, hrcv ▸ ⟨rfl, rfl, rfl, rfl, rfl, hmode⟩⟩
  case entry =>
    obtain ⟨t, _, _, _, _, hexec, -, hrcv⟩ := h.exec_command hs hp hb (i := .entryModeSet id sh) rfl
    exact ⟨t, hexec, hrcv ▸ ⟨rfl, rfl, rfl, rfl, rfl, hmode⟩⟩
  case function =>
    obtain ⟨t, _, _, _, _, hexec, -, hrcv⟩ := h.exec_command hs hp hb (i := .functionSet dl n f low) rfl
    exact ⟨t, hexec, hrcv ▸ ⟨rfl, rfl, rfl, rfl, rfl, rfl, rfl⟩⟩
  case address =>
    obtain ⟨t, _, _, _, _, hexec, -, hrcv⟩ := h.exec_command hs hp hb (i := .setDDRamAddr a) rfl
    exact ⟨t, hexec, hrcv ▸ ⟨rfl, rfl, rfl, rfl, rfl, hmode⟩⟩

/-- Settles O46: each command's own operation, and its busy time from the byte's second falling edge on (R164; logs 10, 11). -/
theorem otherCommandsTakeEffect : Obligations.OtherCommandsTakeEffect := by
  unfold Obligations.OtherCommandsTakeEffect
  intro s hs hp h hb
  obtain ⟨-, -, -, -, hquiet, -⟩ := id h
  have hbusy : max (s.takenAt + s.cfg.tPost) (s.takenAt + (s.cfg.tPost + 2000)) = s.takenAt + s.cfg.tPost + 2000 := by omega
  have hquiet' : max s.rcv.quietUntil (s.takenAt + (s.cfg.tPost + 2000)) = s.takenAt + s.cfg.tPost + 2000 := by
    unfold State.takenAt
    omega
  refine ⟨?clear, ?home, fun x => ?shift, fun a => ?cgram⟩
  case clear =>
    obtain ⟨t, _, _, _, _, hexec, hnow, hrcv⟩ := h.exec_command hs hp hb (i := .clearDisplay) rfl
    exact ⟨t, hexec, hnow ▸ hrcv ▸ ⟨hbusy, hquiet', rfl, rfl, rfl, rfl, rfl⟩⟩
  case home =>
    obtain ⟨t, _, _, _, _, hexec, hnow, hrcv⟩ := h.exec_command hs hp hb (i := .returnHome) rfl
    exact ⟨t, hexec, hnow ▸ hrcv ▸ ⟨hbusy, hquiet', rfl, rfl, rfl, rfl, rfl⟩⟩
  case shift =>
    obtain ⟨t, _, _, _, _, hexec, hnow, hrcv⟩ := h.exec_command hs hp hb (i := .cursorShift x) rfl
    exact ⟨t, hexec, hnow ▸ hrcv ▸ ⟨rfl, rfl, rfl, rfl, rfl, rfl⟩⟩
  case cgram =>
    obtain ⟨t, _, _, _, _, hexec, hnow, hrcv⟩ := h.exec_command hs hp hb (i := .setCGRamAddr a) rfl
    exact ⟨t, hexec, hnow ▸ hrcv ▸ ⟨rfl, rfl, rfl, rfl, rfl, rfl⟩⟩

/-- Data at a known address, with no content lost, in left-to-right mode (R58; G9). -/
theorem Receiver.takeData_known {r : Receiver} {a : BitVec 7} {m : EntryMode} (ha : r.addr = some a) (hm : r.entry = some m)
    (hltr : m.leftToRight = true) (hlost : r.contentLost = false) (b : Byte) :
    r.takeData b =
      { r with ddram := Memory.write a.toNat b r.ddram, addr := if a ≠ 0x7F#7 then some (a + 1#7) else none } := by
  simp [Receiver.takeData, ha, hm, hlost, nextAddress, hltr]

/-- Settles O47: the byte is written at the address, which moves on. -/
theorem senddataLandsAtAddress : Obligations.SenddataLandsAtAddress := by
  unfold Obligations.SenddataLandsAtAddress
  intro s b a m hs hp h hb ha hm hltr hlost
  have hmode := h.2.1
  obtain ⟨u, d, n, hrcv⟩ := h.byteSent_rcv hp (encodeRequest (byteRequest true b)) b true
  have hdata := Receiver.takeData_known
    (r := { s.inStepTaken u d n with executed := s.rcv.executed ++ [⟨true, b⟩] }) ha hm hltr hlost b
  have hrcv' := hrcv.trans (congrArg
    (fun r : Receiver => { r with pins := some (overlay s.cfg s.ntx.bl (loNibble s.cfg b true)) }) hdata)
  refine ⟨_, exec_byteRequest_sent hs hb true b, ?_⟩
  rw [hrcv']
  refine ⟨rfl, Memory.read_write_same _ _ _, fun x hx => Memory.read_write_other _ _ hx, fun ha' => ?_, rfl, rfl, rfl, hmode,
    rfl⟩
  exact if_pos ha'

end InStep

end Sys2Proof.Machine

/-! PROOFS. The receiver's hazards (R60, R161 to R169): what a request that comes too soon, or out of step, leaves of the controller,
and that lost content stays lost. -/

namespace Sys2Proof.Machine

/-! ## Lost content stays lost (R60) -/

/-- The content is any value (R60). -/
structure Receiver.Lost (r : Receiver) : Prop where
  lost : r.contentLost = true
  ddram : r.ddram = []

section Lost

variable {r : Receiver} {s t : State} {ls : List Line} {i : Instr}

theorem Receiver.lost_iff : r.Lost ↔ r.MemOk ∧ r.contentLost = true :=
  ⟨fun ⟨hl, hd⟩ => ⟨.empty hd, hl⟩, fun ⟨hm, hl⟩ => ⟨hl, hm.lost hl⟩⟩

@[simp] theorem Receiver.settleMode_contentLost (r : Receiver) : r.settleMode.contentLost = r.contentLost := by
  unfold Receiver.settleMode
  split <;> rfl

@[simp] theorem Receiver.takeNibble_contentLost (p : Params) (now : Nat) (rs : Bool) (n : Nibble) (r : Receiver) :
    (r.takeNibble p now rs n).contentLost = r.contentLost := by
  unfold Receiver.takeNibble
  split
  · simp
  · split <;> simp
  · rfl

/-- A transfer that meets a busy controller loses the content; any other leaves it as known as it was. -/
theorem Receiver.transfer_contentLost (p : Params) (now : Nat) (v : Byte) (r : Receiver) :
    (r.transfer p now v).contentLost = (decide (now < r.busyUntil) || r.contentLost) := by
  by_cases h : now < r.busyUntil
  · simp [Receiver.transfer, h, Receiver.meetBusy, Receiver.lose, Receiver.loseContent, Receiver.setBusy]
  · simp [Receiver.transfer, h, Receiver.setBusy]

theorem Receiver.Lost.observe (h : r.Lost) (p : Params) (now : Nat) (v : Byte) : (r.observe p now v).Lost := by
  obtain ⟨hm, hl⟩ := Receiver.lost_iff.mp h
  refine Receiver.lost_iff.mpr ⟨Receiver.observe_memOk p now v hm, ?_⟩
  by_cases he : r.fallingEdge p v = true
  · rw [Receiver.observe_edge he]
    simp [Receiver.transfer_contentLost, hl]
  · rw [Receiver.observe_noEdge (by simpa using he)]
    exact hl

theorem Receiver.Lost.unsettle (h : r.Lost) (now : Nat) : (r.unsettle now).Lost := ⟨h.lost, h.ddram⟩

theorem Receiver.Lost.observeLost (h : r.Lost) (p : Params) (now : Nat) : (r.observeLost p now).Lost :=
  ⟨(h.observe p now _).lost, rfl⟩

theorem Receiver.Lost.beginRefresh (h : r.Lost) (now : Nat) : (r.beginRefresh now).Lost := by
  unfold Receiver.beginRefresh
  split
  · exact ⟨rfl, rfl⟩
  · exact h

theorem Receiver.Lost.beginPulse (h : r.Lost) (p : Params) (now : Nat) (q : PulseRequest) : (r.beginPulse p now q).Lost := by
  obtain ⟨u, row, c, ⟨e, -⟩ | ⟨-, ⟨-, e⟩ | ⟨-, -, e⟩ | ⟨-, e⟩⟩⟩ := r.beginPulse_cases p now q <;> rw [e]
  · exact ⟨rfl, rfl⟩
  · exact ⟨rfl, rfl⟩
  · exact ⟨rfl, rfl⟩
  · exact ⟨h.lost, h.ddram⟩

/-- A pulse request that is neither in its place nor a nibble of a synchronisation loses the content. -/
theorem Receiver.beginPulse_lost {p : Params} {now : Nat} {q : PulseRequest} (hplace : r.nextPairing p q = none)
    (hsync : r.synchronises p now q = false) : (r.beginPulse p now q).Lost := by
  obtain ⟨u, row, c, ⟨e, -⟩ | ⟨-, ⟨-, e⟩ | ⟨-, -, e⟩ | ⟨h, -⟩⟩⟩ := r.beginPulse_cases p now q
  · exact e ▸ ⟨rfl, rfl⟩
  · exact e ▸ ⟨rfl, rfl⟩
  · exact e ▸ ⟨rfl, rfl⟩
  · simp [hplace, hsync] at h

theorem resetNtx_lost (h : s.rcv.Lost) : (resetNtx s).rcv.Lost := by
  unfold resetNtx
  split
  · exact (h.observeLost _ _).unsettle _
  · exact h.unsettle _

theorem abandon_lost (h : s.rcv.Lost) (l : Line) : (abandon l s).rcv.Lost := by
  cases l <;> exact resetNtx_lost h

/-- However a request ends, lost content is still lost. -/
theorem run_lost (h : s.rcv.Lost) : (run ls s).rcv.Lost :=
  run_elim (I := fun _ s => s.rcv.Lost) (Q := fun s => s.rcv.Lost)
    (done := fun _ h => h)
    (reset := fun l _ _ h _ => abandon_lost h l)
    (wait := fun _ _ _ h _ _ => h)
    (ok := fun v _ _ _ _ h _ _ _ => h.observe _ _ v)
    (err := fun _ _ _ _ _ h _ _ _ => h.observeLost _ _)
    (start := fun _ _ _ h _ => h)
    (stop := fun n _ _ h _ => by simpa using h) ls s h

theorem prepared_lost (h : s.rcv.Lost) (i : Instr) : (prepared i s).rcv.Lost := by
  cases i with
  | setbl x => exact h.beginRefresh _
  | waitus n => exact h
  | illegal w => exact h
  | _ => exact h.beginPulse _ _ _

theorem exec_lost (h : s.rcv.Lost) (hexec : exec i s = .next t) : t.rcv.Lost := by
  cases hf : s.ntx.fsm with
  | busy =>
    obtain rfl : s = t := by simpa [exec_busy hf] using hexec
    exact h
  | idle =>
    obtain ⟨-, rfl⟩ | ⟨ls, -, rfl⟩ := exec_idle_cases hf hexec
    · exact h
    · exact run_lost (prepared_lost (s := accept _ s) h i)

theorem step_lost (h : s.rcv.Lost) (hstep : step s = .next t) : t.rcv.Lost := by
  obtain ⟨-, rfl⟩ | ⟨-, rfl⟩ | ⟨-, d, q, b, rfl⟩ | ⟨-, d, q, i, hexec⟩ := step_cases hstep
  · exact resetNtx_lost h
  · exact run_lost h
  · exact h
  · exact exec_lost (s := { tick s with drv := d, hostIn := q }) h hexec

end Lost

/-! ## A request that comes too soon (R60, R161, R164, R166) -/

section TooSoon

variable {p : Params} {now : Nat} {bl own rs : Bool} {v b : Byte} {q : PulseRequest} {r : Receiver} {s : State}

/-- A WRNIB, SENDCMD or SENDDATA starts before the controller's busy time, or the wait after Clear or Home, is over, or within the
waits of a synchronisation. -/
def Receiver.TooSoon (p : Params) (now : Nat) (q : PulseRequest) (r : Receiver) : Prop :=
  now < max r.busyUntil r.quietUntil ∨ (∃ own, r.pairing = .syncing own) ∧ r.hasty p now q = true

theorem Receiver.nextPairing_syncing (h : r.pairing = .syncing own) : r.nextPairing p q = none := by
  unfold Receiver.nextPairing
  cases r.mode with
  | bit4 => cases q with
    | nibble v own => cases own <;> simp [h]
    | byte b rs => simp [h]
  | unknown => rfl
  | bit8 => rfl

/-- A nibble within a synchronisation that came too soon begins no other. -/
theorem Receiver.synchronises_hasty (h : r.pairing = .syncing own) (hasty : r.hasty p now q = true) :
    r.synchronises p now q = false := by
  simp [Receiver.synchronises, Receiver.nextRow, hasty, h, apply_ite (List.any · SyncNibble.first)]

theorem Receiver.TooSoon.beginPulse (h : r.TooSoon p now q) :
    r.beginPulse p now q = (r.meetBusy p now).note p now .lost [] .missing := by
  unfold Receiver.beginPulse
  obtain h | ⟨⟨own, hpair⟩, hasty⟩ := h
  · simp [h]
  · simp [Receiver.nextPairing_syncing hpair, Receiver.synchronises_hasty hpair hasty, hasty]

/-- The controller's framing is not known, and its content is any value (R60). -/
structure Receiver.Away (r : Receiver) : Prop extends r.Lost where
  mode : r.mode = .unknown

theorem Receiver.TooSoon.away (h : r.TooSoon p now q) : (r.beginPulse p now q).Away := by
  rw [h.beginPulse]
  exact ⟨⟨rfl, rfl⟩, rfl⟩

/-- A controller that is away and busy is still so after any write. -/
theorem Receiver.Away.observe (h : r.Away) (hbusy : now < r.busyUntil) :
    (r.observe p now v).Away ∧ r.busyUntil ≤ (r.observe p now v).busyUntil := by
  by_cases he : r.fallingEdge p v = true
  · rw [Receiver.observe_edge he, Receiver.transfer, if_pos (by exact hbusy)]
    exact ⟨⟨⟨rfl, rfl⟩, rfl⟩, Nat.le_max_left _ _⟩
  · rw [Receiver.observe_noEdge (by simpa using he)]
    exact ⟨⟨⟨h.lost, h.ddram⟩, h.mode⟩, Nat.le_refl _⟩

/-- The two writes of a pulse make a transfer, whatever the settle write did. -/
theorem Receiver.seePulse_edge (he : (overlay p bl v).getLsbD p.eBit.val = false) (r : Receiver) :
    ∃ u d, r.seePulse p now bl v =
      { Receiver.transfer p (now + p.tEh) (overlay p bl v)
          { (if p.settle then r.observe p now (overlay p bl v) else r) with pins := u, draws := d } with
        pins := some (overlay p bl v) } := by
  have hraise : (raiseE p (overlay p bl v)).getLsbD p.eBit.val = true := by simp [raiseE_bit]
  refine ⟨some (raiseE p (overlay p bl v)), (if p.settle then r.observe p now (overlay p bl v) else r).draws + 1 + 1, ?_⟩
  unfold Receiver.seePulse
  dsimp only
  rw [Receiver.observe_noEdge (Receiver.fallingEdge_high _ hraise),
    Receiver.observe_edge (by rw [Receiver.fallingEdge_known rfl]; simp [he, hraise])]

/-- A pulse to a controller that is away, and busy until after it: it stays away, and is busy once more. -/
theorem Receiver.Away.seePulse (h : r.Away) (he : (overlay p bl v).getLsbD p.eBit.val = false) (hbusy : now + p.tEh < r.busyUntil) :
    (r.seePulse p now bl v).Away ∧ now + p.tEh + (p.tEh + p.tPost + 2000) ≤ (r.seePulse p now bl v).busyUntil := by
  obtain ⟨u, d, hsee⟩ := r.seePulse_edge (now := now) he
  have hstill : now + p.tEh < (if p.settle then r.observe p now (overlay p bl v) else r).busyUntil := by
    split
    · have hobs := (h.observe (p := p) (v := overlay p bl v) (show now < r.busyUntil by omega)).2
      omega
    · exact hbusy
  rw [hsee, Receiver.transfer, if_pos (by exact hstill)]
  exact ⟨⟨⟨rfl, rfl⟩, rfl⟩, Nat.le_max_right _ _⟩

theorem Receiver.TooSoon.busyUntil (h : r.TooSoon p now q) :
    now + (p.tEh + p.tPost + 2000) ≤ (r.beginPulse p now q).busyUntil := by
  rw [h.beginPulse]
  exact Nat.le_max_right _ _

/-- A WRNIB that comes too soon loses the controller. -/
theorem Receiver.TooSoon.seePulse (h : r.TooSoon p now q) (he : (overlay p bl v).getLsbD p.eBit.val = false) :
    ((r.beginPulse p now q).seePulse p now bl v).Away := by
  have hbusy := h.busyUntil
  exact (h.away.seePulse he (by omega)).1

/-- A SENDCMD or SENDDATA that comes too soon loses the controller: its second pulse meets it busy again. -/
theorem Receiver.TooSoon.seeByte (h : r.TooSoon p now q) (hp : p.Wf) :
    ((r.beginPulse p now q).seeByte p now bl b rs).Away := by
  have hbusy := h.busyUntil
  obtain ⟨haway, hbusy'⟩ := h.away.seePulse (now := now) (bl := bl) (hiNibble_e (b := b) (rs := rs) hp) (by omega)
  exact (haway.seePulse (loNibble_e hp) (by omega)).1

/-- What an operand that is legal for a WRNIB puts on E (R90). -/
theorem overlay_e_of_clear (hp : p.Wf) (hv : WellFormed.controlClear p v = true) :
    (overlay p bl v).getLsbD p.eBit.val = false := by
  rw [overlay_e hp]
  exact (controlClear_iff.mp hv).1

end TooSoon

/-! ## Where a SENDCMD or SENDDATA starts (R50, R169) -/

section ByteStart

variable {p : Params} {now : Nat} {rs : Bool} {b : Byte} {r : Receiver}

/-- A byte is one in its place only at a first half in 4-bit framing, between two bytes (R50). -/
theorem Receiver.nextPairing_byte (p : Params) (b : Byte) (rs : Bool) (r : Receiver) :
    r.nextPairing p (.byte b rs) =
      if r.mode = .bit4 ∧ r.phase = .high ∧ r.pairing = .between then some .between else none := by
  unfold Receiver.nextPairing
  cases r.mode with
  | unknown => rfl
  | bit8 => rfl
  | bit4 => cases r.phase <;> cases r.pairing <;> rfl

theorem Receiver.nextPairing_byte_misplaced (h : r.mode ≠ .bit4 ∨ r.phase = .low ∨ r.pairing ≠ .between) :
    r.nextPairing p (.byte b rs) = none := by
  rw [Receiver.nextPairing_byte, if_neg]
  rintro ⟨hmode, hphase, hpair⟩
  simp [hmode, hphase, hpair] at h

/-- A byte is no nibble of a synchronisation. -/
theorem Receiver.synchronises_byte (p : Params) (now : Nat) (b : Byte) (rs : Bool) (r : Receiver) :
    r.synchronises p now (.byte b rs) = false := rfl

/-- A byte that is not in its place loses the controller (R50, U16). -/
theorem Receiver.beginPulse_byte_misplaced (h : r.mode ≠ .bit4 ∨ r.phase = .low ∨ r.pairing ≠ .between) :
    r.beginPulse p now (.byte b rs) =
      (if now < max r.busyUntil r.quietUntil ∨ r.hasty p now (.byte b rs) = true then r.meetBusy p now
        else r.lose).note p now .lost [] .missing := by
  have hnone := Receiver.nextPairing_byte_misplaced (p := p) (b := b) (rs := rs) h
  have hres : r.resynchronised p now (.byte b rs) = false := rfl
  unfold Receiver.beginPulse
  simp only [hnone, r.synchronises_byte p now b rs, hres, PulseRequest.isSync, Bool.false_eq_true, if_false]
  by_cases hsoon : now < max r.busyUntil r.quietUntil
  · simp only [hsoon, true_or, if_true]
  · simp only [hsoon, false_or, if_false]
    split <;> rfl

/-- A byte out of its place loses the content. -/
theorem Receiver.misplaced_lost (h : r.mode ≠ .bit4 ∨ r.phase = .low ∨ r.pairing ≠ .between) :
    (r.beginPulse p now (.byte b rs)).Lost :=
  Receiver.beginPulse_lost (Receiver.nextPairing_byte_misplaced h) (r.synchronises_byte p now b rs)

/-- A byte in its place, to a controller that is ready, is one more byte. -/
theorem Receiver.beginPulse_byte_inPlace (hready : max r.busyUntil r.quietUntil ≤ now)
    (h : r.mode = .bit4 ∧ r.phase = .high ∧ r.pairing = .between) :
    r.beginPulse p now (.byte b rs) = r.note p now .between [] (r.nextSetup (.byte b rs)) := by
  unfold Receiver.beginPulse
  simp [show ¬ now < max r.busyUntil r.quietUntil by omega, Receiver.nextPairing_byte, h, Receiver.nextRow, PulseRequest.isSync]

end ByteStart

/-! ## Before Initialize has been run nothing is known (R162) -/

section Unset

variable {p : Params} {now : Nat} {bl rs : Bool} {v b : Byte} {r : Receiver}

@[simp] theorem Receiver.executeByte_setup (p : Params) (now : Nat) (rs : Bool) (b : Byte) (r : Receiver) :
    (r.executeByte p now rs b).setup = r.setup := by
  cases rs
  · simp only [Receiver.executeByte, Bool.false_eq_true, if_false, Receiver.takeCommand]
    split
    · rfl
    · split <;> rfl
  · simp only [Receiver.executeByte, if_true, Receiver.takeData]
    split <;> rfl

/-- Nothing of Initialize counts, and nothing is known of the registers or of DDRAM (R162). -/
def Receiver.Blank (r : Receiver) : Prop :=
  r.setup = .missing ∧ r.addr = none ∧ r.entry = none ∧ r.display = none ∧ r.function = none ∧ r.ddram = []

/-- Nothing of Initialize counts, and the controller is blank, or in 4-bit framing. -/
def Receiver.Unset (r : Receiver) : Prop := r.Blank ∨ r.setup = .missing ∧ r.mode = .bit4

/-- Nothing of Initialize counts, and the controller is blank, or expects the second half of a byte. -/
def Receiver.HalfUnset (r : Receiver) : Prop := r.Blank ∨ r.setup = .missing ∧ r.mode = .bit4 ∧ r.phase = .low

theorem Receiver.takeByte_blank (h : r.setup = .missing) : (r.takeByte p now rs b).Blank := by
  obtain ⟨-, e⟩ | ⟨hne, -⟩ := r.takeByte_cases p now rs b
  · rw [e]
    exact ⟨(r.executeByte_setup p now rs b).trans h, rfl, rfl, rfl, rfl, rfl⟩
  · exact absurd h hne

theorem Receiver.Blank.settleMode (h : r.Blank) : r.settleMode.Blank := by
  unfold Receiver.settleMode
  split
  · exact ⟨h.1, rfl, rfl, rfl, rfl, rfl⟩
  · exact h
  · exact h

theorem Receiver.Blank.takeNibble (h : r.Blank) (n : Nibble) : (r.takeNibble p now rs n).Blank := by
  unfold Receiver.takeNibble
  split
  · exact Receiver.takeByte_blank h.1
  · split
    · exact h
    · exact Receiver.takeByte_blank h.1
  · exact h

theorem Receiver.Blank.transfer (h : r.Blank) : (r.transfer p now v).Blank := by
  unfold Receiver.transfer
  split
  · exact ⟨rfl, rfl, rfl, rfl, rfl, rfl⟩
  · exact Receiver.Blank.takeNibble (Receiver.Blank.settleMode (r := r.setBusy now p.tPost) h) _

/-- The first half of a byte, or the second: then it is taken, and leaves nothing known. -/
theorem Receiver.Unset.transfer (h : r.Unset) : (r.transfer p now v).HalfUnset := by
  obtain h | ⟨hsetup, hmode⟩ := h
  · exact .inl h.transfer
  by_cases hbusy : now < r.busyUntil
  · rw [Receiver.transfer, if_pos hbusy]
    exact .inl ⟨rfl, rfl, rfl, rfl, rfl, rfl⟩
  · cases hphase : r.phase with
    | high =>
      rw [Receiver.transfer_high hmode hphase (by omega)]
      exact .inr ⟨hsetup, hmode, rfl⟩
    | low =>
      rw [Receiver.transfer_low hmode hphase (by omega)]
      exact .inl (Receiver.takeByte_blank hsetup)

/-- The second half of a byte: it is taken, and leaves nothing known. -/
theorem Receiver.HalfUnset.transfer (h : r.HalfUnset) : (r.transfer p now v).Blank := by
  obtain h | ⟨hsetup, hmode, hphase⟩ := h
  · exact h.transfer
  by_cases hbusy : now < r.busyUntil
  · rw [Receiver.transfer, if_pos hbusy]
    exact ⟨rfl, rfl, rfl, rfl, rfl, rfl⟩
  · rw [Receiver.transfer_low hmode hphase (by omega)]
    exact Receiver.takeByte_blank hsetup

theorem Receiver.HalfUnset.unset (h : r.HalfUnset) : r.Unset := h.imp_right fun ⟨hsetup, hmode, _⟩ => ⟨hsetup, hmode⟩

theorem Receiver.Unset.observe (h : r.Unset) : (r.observe p now v).Unset := by
  by_cases he : r.fallingEdge p v = true
  · rw [Receiver.observe_edge he]
    exact Receiver.HalfUnset.unset (Receiver.Unset.transfer (r := { r with draws := r.draws + 1 }) h)
  · rw [Receiver.observe_noEdge (by simpa using he)]
    exact h

theorem Receiver.HalfUnset.observe (h : r.HalfUnset) : (r.observe p now v).HalfUnset := by
  by_cases he : r.fallingEdge p v = true
  · rw [Receiver.observe_edge he]
    exact .inl (Receiver.HalfUnset.transfer (r := { r with draws := r.draws + 1 }) h)
  · rw [Receiver.observe_noEdge (by simpa using he)]
    exact h

theorem Receiver.Unset.seePulse (h : r.Unset) (he : (overlay p bl v).getLsbD p.eBit.val = false) :
    (r.seePulse p now bl v).HalfUnset := by
  obtain ⟨u, d, hsee⟩ := r.seePulse_edge (now := now) he
  rw [hsee]
  refine Receiver.Unset.transfer (r := { (if p.settle then r.observe p now (overlay p bl v) else r) with pins := u, draws := d }) ?_
  split
  · exact h.observe
  · exact h

theorem Receiver.HalfUnset.seePulse (h : r.HalfUnset) (he : (overlay p bl v).getLsbD p.eBit.val = false) :
    (r.seePulse p now bl v).Blank := by
  obtain ⟨u, d, hsee⟩ := r.seePulse_edge (now := now) he
  rw [hsee]
  refine Receiver.HalfUnset.transfer
    (r := { (if p.settle then r.observe p now (overlay p bl v) else r) with pins := u, draws := d }) ?_
  split
  · exact h.observe
  · exact h

/-- A byte request that finds nothing of Initialize run starts in its place, or loses the controller. -/
theorem Receiver.beginPulse_unset (h : r.setup = .missing) : (r.beginPulse p now (.byte b rs)).Unset := by
  by_cases hplace : r.mode = .bit4 ∧ r.phase = .high ∧ r.pairing = .between
  · by_cases hready : max r.busyUntil r.quietUntil ≤ now
    · rw [Receiver.beginPulse_byte_inPlace hready hplace]
      exact .inr ⟨by simp [Receiver.nextSetup, h], hplace.1⟩
    · rw [Receiver.TooSoon.beginPulse (.inl (by omega))]
      exact .inl ⟨rfl, rfl, rfl, rfl, rfl, rfl⟩
  · rw [Receiver.beginPulse_byte_misplaced (by cases hphase : r.phase <;> simp_all [or_iff_not_imp_left])]
    split <;> exact .inl ⟨rfl, rfl, rfl, rfl, rfl, rfl⟩

/-- A byte request that finds nothing of Initialize run leaves it so, and nothing known (R162). -/
theorem Receiver.seeByte_blank (hp : p.Wf) (h : r.setup = .missing) :
    ((r.beginPulse p now (.byte b rs)).seeByte p now bl b rs).Blank :=
  ((Receiver.beginPulse_unset h).seePulse (hiNibble_e hp)).seePulse (loNibble_e hp)

end Unset

/-! ## The requests -/

section Requests

variable {s : State} {v b : Byte}

/-- A byte request that starts with the content lost, or loses it, leaves it lost, however it ends. -/
theorem exec_byteRequest_lost (hidle : s.ntx.fsm = .idle) (rs : Bool) (b : Byte)
    (h : (s.rcv.beginPulse s.cfg s.now (.byte b rs)).Lost) : ∃ t, exec (byteRequest rs b) s = .next t ∧ t.rcv.Lost :=
  ⟨_, exec_byteRequest hidle rs b, run_lost h⟩

/-- Settles O49: a request that comes too soon meets the controller busy (R60), a byte out of its place loses it (U16), nothing
is known of a byte that comes before Initialize (R162), and lost content stays lost. -/
theorem busyTransferLosesController : Obligations.BusyTransferLosesController := by
  unfold Obligations.BusyTransferLosesController
  refine ⟨?nibble, ?byte, ?misplaced, ?refresh, ?unset, ?forGood⟩
  case nibble =>
    intro s v own hs hp hv hb h
    have hsoon : s.rcv.TooSoon s.cfg s.now (nibbleRequest v s) := by
      obtain h | h | ⟨hpair, hrow, h⟩ | ⟨hpair, hsync, hrow, h⟩ := h
      · exact .inl (lt_max_of_lt_left h)
      · exact .inl (lt_max_of_lt_right h)
      · have hne : s.rcv.syncRow ≠ [] := fun h0 => by simp [h0] at hrow
        refine .inr ⟨⟨own, hpair⟩, ?_⟩
        unfold Receiver.hasty
        split
        · simpa [hne] using by omega
        · simpa [hrow] using h
      · exact .inr ⟨⟨own, hpair⟩, by simp [Receiver.hasty, nibbleRequest, PulseRequest.isSync, hsync, hrow, h]⟩
    obtain ⟨⟨hlost, hddram⟩, hmode⟩ := hsoon.seePulse (bl := s.ntx.bl) (overlay_e_of_clear hp hv)
    exact ⟨_, wrnibPulse s v hs hv hb, hmode, hlost, hddram⟩
  case byte =>
    intro s b rs own hs hp hb h
    have hsoon : s.rcv.TooSoon s.cfg s.now (.byte b rs) := by
      obtain h | h | ⟨hpair, hrow, h⟩ := h
      · exact .inl (lt_max_of_lt_left h)
      · exact .inl (lt_max_of_lt_right h)
      · exact .inr ⟨⟨own, hpair⟩, by simp [Receiver.hasty, PulseRequest.isSync, hrow, h]⟩
    obtain ⟨⟨hlost, hddram⟩, hmode⟩ := hsoon.seeByte (bl := s.ntx.bl) (b := b) (rs := rs) hp
    exact ⟨_, exec_byteRequest_sent hs hb rs b, hmode, hlost, hddram⟩
  case misplaced =>
    intro s b rs ⟨hidle, _⟩ h
    obtain ⟨t, hexec, hlost, hddram⟩ := exec_byteRequest_lost hidle rs b (Receiver.misplaced_lost h)
    exact ⟨t, hexec, hlost, hddram⟩
  case refresh =>
    intro s x hs hb hquiet
    obtain ⟨a, as, has, ha, -⟩ := okAnswers_cons hb
    have hlose : s.rcv.beginRefresh s.now = s.rcv.lose := if_pos hquiet
    have hexec := setblRefreshes s x hs hb
    rw [hlose] at hexec
    obtain ⟨hlost, hddram⟩ := Receiver.Lost.observe (r := s.rcv.lose) ⟨rfl, rfl⟩ s.cfg s.now (backlightByte s.cfg x)
    refine ⟨_, hexec, hlost, hddram, fun hlow => ?_⟩
    exact congrArg Receiver.mode (Receiver.observe_noEdge (r := s.rcv.lose) (now := s.now)
      (Receiver.fallingEdge_low hlow (backlightByte s.cfg x)))
  case unset =>
    intro s b rs hs hp hb hsetup
    exact ⟨_, exec_byteRequest_sent hs hb rs b, Receiver.seeByte_blank hp hsetup⟩
  case forGood =>
    intro s t h hstep hl
    obtain ⟨hlost, hddram⟩ := step_lost ⟨hl, h.lost hl⟩ hstep
    exact ⟨hlost, hddram⟩

/-! ## A single nibble to a controller in step (R50, R169) -/

/-- The row of synchronisation nibbles that a raw WRNIB of `v` leaves. -/
def State.rowAfter (s : State) (v : Byte) : List SyncNibble := s.rcv.nextRow s.cfg s.now (.nibble v false)

/-- The start of a WRNIB that finds the controller in step: it is the first of a pair. -/
theorem State.InStep.beginPulse_nibble (h : s.InStep) (v : Byte) :
    s.rcv.beginPulse s.cfg s.now (.nibble v false) =
      s.rcv.note s.cfg s.now (.half (v.getLsbD s.cfg.rsBit.val)) (s.rowAfter v) .complete := by
  obtain ⟨-, hmode, hphase, hbusy, hquiet, hpairing, -, hsetup⟩ := h
  have hready : ¬ s.now < max s.rcv.busyUntil s.rcv.quietUntil := by omega
  simp [Receiver.beginPulse, hready, Receiver.nextPairing, hmode, hpairing, hphase, State.rowAfter, Receiver.nextSetup, hsetup]

theorem State.InStep.rowAfter_length (h : s.InStep) (v : Byte) : (s.rowAfter v).length < 3 := by
  obtain ⟨-, -, -, -, -, -, hrow, -⟩ := h
  unfold State.rowAfter Receiver.nextRow
  split
  · rw [List.length_take, List.length_cons]
    split
    · simp
    · omega
  · simp

/-- The receiver after a WRNIB that found the controller in step: the nibble is its high half. -/
def State.halfSent (v : Byte) (d : Nat) (s : State) : Receiver :=
  { s.rcv.note s.cfg s.now (.half (v.getLsbD s.cfg.rsBit.val)) (s.rowAfter v) .complete with
    pins := some (overlay s.cfg s.ntx.bl v), draws := d, high := v.extractLsb' 4 4, phase := .low,
    busyUntil := s.now + s.cfg.tEh + s.cfg.tPost }

/-- A WRNIB that finds the controller in step is taken as a high half. -/
theorem State.InStep.nibbleSent_rcv (h : s.InStep) (hp : s.cfg.Wf) (hv : WellFormed.controlClear s.cfg v = true) :
    ∃ d, (s.rcv.beginPulse s.cfg s.now (.nibble v false)).seePulse s.cfg s.now s.ntx.bl v = s.halfSent v d := by
  rw [h.beginPulse_nibble]
  obtain ⟨hlow, hmode, hphase, hbusy, -⟩ := h
  obtain ⟨d, u, hsee⟩ := Receiver.seePulse_transfer (now := s.now)
    (r := s.rcv.note s.cfg s.now (.half (v.getLsbD s.cfg.rsBit.val)) (s.rowAfter v) .complete)
    (overlay_e_of_clear (bl := s.ntx.bl) hp hv) (.inr hlow)
  refine ⟨d, hsee.trans ?_⟩
  rw [Receiver.transfer_high (by exact hmode) (by exact hphase) (by exact hbusy.trans (Nat.le_add_right _ _)), dataLines_overlay]
  simp only [Receiver.note, State.halfSent, show max s.rcv.busyUntil (s.now + s.cfg.tEh + s.cfg.tPost) =
    s.now + s.cfg.tEh + s.cfg.tPost by omega]
  rfl

/-- A WRNIB that loses the content as it starts leaves it lost, however it ends. -/
theorem exec_wrnib_lost (hidle : s.ntx.fsm = .idle) (hv : WellFormed.controlClear s.cfg v = true)
    (h : (s.rcv.beginPulse s.cfg s.now (nibbleRequest v s)).Lost) : ∃ t, exec (.wrnib v) s = .next t ∧ t.rcv.Lost :=
  ⟨_, exec_wrnib_legal hidle hv, run_lost h⟩

/-- A wait leaves the receiver, the driver and NTX's readiness as they were (R112). -/
theorem exec_waitus_frame (hs : s.Free) {n : BitVec 24} (hn : n ≠ 0#24) :
    ∃ t, exec (.waitus n) s = .next t ∧ t.rcv = s.rcv ∧ t.drv = s.drv ∧ t.ntx.fsm = .idle :=
  ⟨_, (waitusWaits s n hs).2.2 hn, rfl, rfl, rfl⟩

/-- A byte request does the same to two receivers that its start makes equal. -/
theorem exec_byteRequest_congr (hidle : s.ntx.fsm = .idle) {rs : Bool} {r : Receiver}
    (h : r.beginPulse s.cfg s.now (.byte b rs) = s.rcv.beginPulse s.cfg s.now (.byte b rs)) :
    exec (byteRequest rs b) { s with rcv := r } = exec (byteRequest rs b) s := by
  rw [exec_byteRequest (s := { s with rcv := r }) hidle, exec_byteRequest hidle]
  exact congrArg (fun r' => Host.Outcome.next (run (byteLines s.cfg s.ntx.bl b rs)
    { accept (encodeRequest (byteRequest rs b)) s with rcv := r' })) h

/-- A byte out of its place, the controller ready and no synchronisation just over, finds the controller as good as lost. -/
theorem Receiver.beginPulse_misplaced_lose {p : Params} {now : Nat} {rs : Bool} {r : Receiver}
    (h : r.mode ≠ .bit4 ∨ r.phase = .low ∨ r.pairing ≠ .between) (hready : max r.busyUntil r.quietUntil ≤ now)
    (hrow : r.syncRow.length < 3) : r.lose.beginPulse p now (.byte b rs) = r.beginPulse p now (.byte b rs) := by
  have hsoon : ¬ now < max r.busyUntil r.quietUntil := by omega
  rw [Receiver.beginPulse_byte_misplaced h, Receiver.beginPulse_byte_misplaced (r := r.lose) (.inl nofun), if_neg, if_neg]
  · rfl
  · simp [hsoon, Receiver.hasty, PulseRequest.isSync, show ¬ 3 ≤ r.syncRow.length by omega]
  · simp [Receiver.hasty, PulseRequest.isSync, show ¬ now < max r.lose.busyUntil r.lose.quietUntil from hsoon,
      show r.lose.syncRow = [] from rfl]

theorem isSyncNibble_sync (p : Params) : isSyncNibble p 0x30#8 = true := by
  have hrs : ∀ k : Fin 4, (0x30#8).getLsbD k.val = false := by decide
  rw [isSyncNibble, hrs]
  rfl

/-- The first nibble of Initialize while a byte is half sent begins no synchronisation, and is in no byte's place (R169). -/
theorem Receiver.startsInitialize_lost {p : Params} {now : Nat} {r : Receiver} {rs : Bool} (hpair : r.pairing = .half rs) :
    (r.beginPulse p now (.nibble 0x30#8 true)).Lost := by
  refine Receiver.beginPulse_lost ?_ ?_
  · unfold Receiver.nextPairing
    cases r.mode <;> rfl
  · have hsync : (PulseRequest.nibble 0x30#8 true).isSync p = true := isSyncNibble_sync p
    have hswitch : (PulseRequest.nibble 0x30#8 true).isSwitch p = false := by
      simp [PulseRequest.isSwitch, isSwitchNibble]
    simp [Receiver.synchronises, Receiver.nextRow, hsync, hswitch, Receiver.startsInitialize, hpair, PulseRequest.isOwn]

/-- Settles O48: the nibble is a high half; a byte after it is out of its place, and Initialize after it finds a byte half sent. -/
theorem singleNibbleShiftsPhase : Obligations.SingleNibbleShiftsPhase := by
  unfold Obligations.SingleNibbleShiftsPhase
  intro s v hs hp h hlife hv hb
  have hexec := wrnibPulse s v hs hv hb
  have hrequest : nibbleRequest v s = .nibble v false := by simp [nibbleRequest, hlife]
  obtain ⟨d, hrcv⟩ := h.nibbleSent_rcv hp hv
  rw [hrequest, hrcv] at hexec
  have hrow := h.rowAfter_length v
  obtain ⟨-, hmode, -, -, hquiet, -⟩ := id h
  obtain ⟨t, hexec, hfree, hnow, hrcv⟩ : ∃ t, exec (.wrnib v) s = .next t ∧ t.Free ∧
      t.now = s.now + s.cfg.tEh + s.cfg.tPost ∧ t.rcv = s.halfSent v d := ⟨_, hexec, ⟨rfl, hs.2⟩, rfl, rfl⟩
  refine ⟨t, hexec, hrcv ▸ rfl, hrcv ▸ rfl, hrcv ▸ hmode, hrcv ▸ rfl, hrcv ▸ rfl, hrcv ▸ rfl, fun b rs => ?byte, ?construct⟩
  case byte =>
    have hlow : t.rcv.mode ≠ .bit4 ∨ t.rcv.phase = .low ∨ t.rcv.pairing ≠ .between := .inr (.inl (hrcv ▸ rfl))
    have hready : max t.rcv.busyUntil t.rcv.quietUntil ≤ t.now := by
      rw [hrcv, hnow]
      exact max_le (Nat.le_refl _) (show s.rcv.quietUntil ≤ _ by omega)
    obtain ⟨u, hu, hlost, hddram⟩ := exec_byteRequest_lost hfree.1 rs b (Receiver.misplaced_lost hlow)
    exact ⟨u, hu, (exec_byteRequest_congr hfree.1 (Receiver.beginPulse_misplaced_lose hlow hready (hrcv ▸ hrow))).trans hu,
      hlost, hddram⟩
  case construct =>
    have hhalf : t.rcv.pairing = .half (v.getLsbD s.cfg.rsBit.val) := hrcv ▸ rfl
    obtain ⟨u, hwait, hrcv', hdrv, hidle⟩ := exec_waitus_frame (s := { t with drv := { t.drv with life := .initializing } })
      hfree (show 1000000#24 ≠ 0#24 by decide)
    have hown : nibbleRequest 0x30#8 u = .nibble 0x30#8 true := by simp [nibbleRequest, hdrv]
    obtain ⟨w, hnibble, hlost, hddram⟩ := exec_wrnib_lost hidle (controlClear_sync u.cfg)
      (hown ▸ Receiver.startsInitialize_lost (hrcv' ▸ hhalf))
    exact ⟨u, w, hwait, hnibble, hlost, hddram⟩

end Requests

end Sys2Proof.Machine

/-! PROOFS. Initialize on the receiver (R59, R121 to R124, R162): three synchronisation nibbles bring the controller from any framing
into 8-bit framing, the fourth into 4-bit framing at the high half, and the five bytes of the configuration are then executed. -/

namespace Sys2Proof.Machine

/-! ## What a transfer to a ready controller leaves alone -/

/-- The fields that only the checks at the start of a request, and hazards, write, are the same. -/
structure Receiver.SameChecks (r r' : Receiver) : Prop where
  pairing : r'.pairing = r.pairing
  syncRow : r'.syncRow = r.syncRow
  pulseEnd : r'.pulseEnd = r.pulseEnd
  setup : r'.setup = r.setup
  contentLost : r'.contentLost = r.contentLost

section Transfer

variable {p : Params} {now : Nat} {rs : Bool} {b v : Byte} {n h : Nibble} {r : Receiver}

theorem Receiver.SameChecks.trans {r₁ r₂ r₃ : Receiver} (h₁ : r₁.SameChecks r₂) (h₂ : r₂.SameChecks r₃) : r₁.SameChecks r₃ :=
  ⟨h₂.pairing.trans h₁.pairing, h₂.syncRow.trans h₁.syncRow, h₂.pulseEnd.trans h₁.pulseEnd, h₂.setup.trans h₁.setup,
    h₂.contentLost.trans h₁.contentLost⟩

theorem Receiver.executeByte_sameChecks (p : Params) (now : Nat) (rs : Bool) (b : Byte) (r : Receiver) :
    r.SameChecks (r.executeByte p now rs b) := by
  cases rs
  · simp only [Receiver.executeByte, Bool.false_eq_true, if_false, Receiver.takeCommand]
    split
    · exact ⟨rfl, rfl, rfl, rfl, rfl⟩
    · split <;> exact ⟨rfl, rfl, rfl, rfl, rfl⟩
  · simp only [Receiver.executeByte, if_true, Receiver.takeData]
    split <;> exact ⟨rfl, rfl, rfl, rfl, rfl⟩

theorem Receiver.SameChecks.takeByte {r₀ : Receiver} (h : r₀.SameChecks r) : r₀.SameChecks (r.takeByte p now rs b) := by
  have hexec := h.trans (r.executeByte_sameChecks p now rs b)
  obtain ⟨-, e⟩ | ⟨-, e⟩ := r.takeByte_cases p now rs b
  · exact e ▸ hexec.trans ⟨rfl, rfl, rfl, rfl, rfl⟩
  · exact e ▸ hexec

theorem Receiver.SameChecks.settleMode {r₀ : Receiver} (h : r₀.SameChecks r) : r₀.SameChecks r.settleMode := by
  unfold Receiver.settleMode
  split
  · exact h.trans ⟨rfl, rfl, rfl, rfl, rfl⟩
  · exact h
  · exact h

theorem Receiver.SameChecks.takeNibble {r₀ : Receiver} (h : r₀.SameChecks r) : r₀.SameChecks (r.takeNibble p now rs n) := by
  unfold Receiver.takeNibble
  split
  · exact Receiver.SameChecks.takeByte (h.trans ⟨rfl, rfl, rfl, rfl, rfl⟩)
  · split
    · exact h.trans ⟨rfl, rfl, rfl, rfl, rfl⟩
    · exact Receiver.SameChecks.takeByte (h.trans ⟨rfl, rfl, rfl, rfl, rfl⟩)
  · exact h

theorem Receiver.transfer_ready (hbusy : r.busyUntil ≤ now) :
    r.transfer p now v = (r.setBusy now p.tPost).settleMode.takeNibble p now (v.getLsbD p.rsBit.val) (dataLines v) :=
  if_neg (by omega)

theorem Receiver.SameChecks.transfer {r₀ : Receiver} (h : r₀.SameChecks r) (hbusy : r.busyUntil ≤ now) :
    r₀.SameChecks (r.transfer p now v) := by
  rw [Receiver.transfer_ready hbusy]
  exact (h.trans (r₃ := r.setBusy now p.tPost) ⟨rfl, rfl, rfl, rfl, rfl⟩).settleMode.takeNibble

/-! ## How long a transfer keeps the controller busy -/

/-- A byte that is neither ClearDisplay nor ReturnHome leaves the two waits as they are; those two, 2000 µs beyond the pulse's own
(R164). -/
theorem Receiver.executeByte_times (p : Params) (now : Nat) (rs : Bool) (b : Byte) (r : Receiver) :
    (r.executeByte p now rs b).busyUntil = r.busyUntil ∧ (r.executeByte p now rs b).quietUntil = r.quietUntil ∨
      (b = 0x01#8 ∨ b = 0x02#8) ∧ (r.executeByte p now rs b).busyUntil = max r.busyUntil (now + (p.tPost + 2000)) ∧
        (r.executeByte p now rs b).quietUntil = max r.quietUntil (now + (p.tPost + 2000)) := by
  cases rs
  · simp only [Receiver.executeByte, Bool.false_eq_true, if_false, Receiver.takeCommand]
    split
    · exact .inl ⟨rfl, rfl⟩
    · rename_i i hi
      have hb := encodeCommand_of_decodeCommand hi
      cases i with
      | clearDisplay => exact .inr ⟨.inl (Option.some.inj hb).symm, rfl, rfl⟩
      | returnHome => exact .inr ⟨.inr (Option.some.inj hb).symm, rfl, rfl⟩
      | _ => exact .inl ⟨rfl, rfl⟩
  · simp only [Receiver.executeByte, if_true, Receiver.takeData]
    split <;> exact .inl ⟨rfl, rfl⟩

theorem Receiver.takeByte_times (p : Params) (now : Nat) (rs : Bool) (b : Byte) (r : Receiver) :
    (r.takeByte p now rs b).busyUntil = r.busyUntil ∧ (r.takeByte p now rs b).quietUntil = r.quietUntil ∨
      (b = 0x01#8 ∨ b = 0x02#8) ∧ (r.takeByte p now rs b).busyUntil = max r.busyUntil (now + (p.tPost + 2000)) ∧
        (r.takeByte p now rs b).quietUntil = max r.quietUntil (now + (p.tPost + 2000)) := by
  have h := r.executeByte_times p now rs b
  obtain ⟨-, e⟩ | ⟨-, e⟩ := r.takeByte_cases p now rs b <;> rw [e] <;> exact h

theorem Receiver.takeNibble_bit8 (h : r.mode = .bit8) :
    r.takeNibble p now rs n =
      Receiver.takeByte p now rs (n ++ (Config.freeByte r.draws).extractLsb' 0 4) { r with draws := r.draws + 1 } := by
  simp [Receiver.takeNibble, h]

theorem Receiver.takeNibble_high (hmode : r.mode = .bit4) (hphase : r.phase = .high) :
    r.takeNibble p now rs n = { r with high := n, phase := .low } := by
  simp [Receiver.takeNibble, hmode, hphase]

theorem Receiver.takeNibble_low (hmode : r.mode = .bit4) (hphase : r.phase = .low) :
    r.takeNibble p now rs n = Receiver.takeByte p now rs (r.high ++ n) { r with phase := .high } := by
  simp [Receiver.takeNibble, hmode, hphase]

/-- A nibble that completes neither ClearDisplay nor ReturnHome leaves the two waits as they are. -/
theorem Receiver.takeNibble_times (p : Params) (now : Nat) (rs : Bool) (n : Nibble) (r : Receiver) :
    (r.takeNibble p now rs n).busyUntil = r.busyUntil ∧ (r.takeNibble p now rs n).quietUntil = r.quietUntil ∨
      (r.mode = .bit8 ∧ n = 0#4 ∨ r.mode = .bit4 ∧ (n = 1#4 ∨ n = 2#4)) ∧
        (r.takeNibble p now rs n).busyUntil = max r.busyUntil (now + (p.tPost + 2000)) ∧
        (r.takeNibble p now rs n).quietUntil = max r.quietUntil (now + (p.tPost + 2000)) := by
  have first : ∀ n x : Nibble, n ++ x = 0x01#8 ∨ n ++ x = 0x02#8 → n = 0#4 := by decide
  have second : ∀ h n : Nibble, h ++ n = 0x01#8 ∨ h ++ n = 0x02#8 → n = 1#4 ∨ n = 2#4 := by decide
  cases hmode : r.mode with
  | bit8 =>
    rw [Receiver.takeNibble_bit8 hmode]
    exact (Receiver.takeByte_times p now rs _ { r with draws := r.draws + 1 }).imp_right
      fun ⟨hb, htimes⟩ => ⟨.inl ⟨rfl, first _ _ hb⟩, htimes⟩
  | bit4 =>
    cases hphase : r.phase with
    | high =>
      rw [Receiver.takeNibble_high hmode hphase]
      exact .inl ⟨rfl, rfl⟩
    | low =>
      rw [Receiver.takeNibble_low hmode hphase]
      exact (Receiver.takeByte_times p now rs _ { r with phase := .high }).imp_right
        fun ⟨hb, htimes⟩ => ⟨.inr ⟨rfl, second _ _ hb⟩, htimes⟩
  | unknown =>
    exact .inl (by simp [Receiver.takeNibble, hmode])

/-! ## What a nibble makes of the framing (R58, R59; G10) -/

/-- FunctionSet chooses the framing (R59). -/
theorem Receiver.takeByte_functionSet {dl tl tf : Bool} {low : BitVec 2}
    (h : decodeCommand b = .instr (.functionSet dl tl tf low)) :
    (r.takeByte p now false b).mode = (if dl then .bit8 else .bit4) ∧ (r.takeByte p now false b).phase = .high := by
  have hexec : (r.executeByte p now false b).mode = (if dl then .bit8 else .bit4) ∧
      (r.executeByte p now false b).phase = .high := by
    simp only [Receiver.executeByte, Bool.false_eq_true, if_false, Receiver.takeCommand, h]
    exact ⟨rfl, rfl⟩
  obtain ⟨-, e⟩ | ⟨-, e⟩ := r.takeByte_cases p now false b
  · exact e ▸ hexec
  · exact e ▸ hexec

/-- Any other command keeps it. -/
theorem Receiver.takeByte_framing (h : b.getLsbD 7 = true ∨ b.extractLsb' 5 3 ≠ 1#3) :
    (r.takeByte p now false b).mode = r.mode ∧ (r.takeByte p now false b).phase = r.phase := by
  have hexec := Receiver.takeCommand_framing (p := p) (now := now) (r := { r with executed := r.executed ++ [⟨false, b⟩] }) h
  obtain ⟨-, e⟩ | ⟨-, e⟩ := r.takeByte_cases p now false b
  · exact e ▸ hexec
  · exact e ▸ hexec

/-- A byte with high half 3 is FunctionSet with `DL` = 1 (R79). -/
theorem decodeCommand_three (x : Nibble) :
    decodeCommand (3#4 ++ x) = .instr (.functionSet true (x.getLsbD 3) (x.getLsbD 2) (x.extractLsb' 0 2)) := by
  revert x
  decide

/-- A byte with high half 2 is FunctionSet with `DL` = 0 (R79). -/
theorem decodeCommand_two (x : Nibble) :
    decodeCommand (2#4 ++ x) = .instr (.functionSet false (x.getLsbD 3) (x.getLsbD 2) (x.extractLsb' 0 2)) := by
  revert x
  decide

/-- A command byte that ends in 4-bit framing at the high half, or in 8-bit framing. -/
theorem Receiver.takeByte_settles (hmode : r.mode = .bit4) (hphase : r.phase = .high) (h n : Nibble) :
    (r.takeByte p now false (h ++ n)).mode = .bit8 ∨
      (r.takeByte p now false (h ++ n)).mode = .bit4 ∧ (r.takeByte p now false (h ++ n)).phase = .high := by
  have hcases : ∀ h n : Nibble, h = 3#4 ∨ h = 2#4 ∨ (h ++ n).getLsbD 7 = true ∨ (h ++ n).extractLsb' 5 3 ≠ 1#3 := by decide
  obtain rfl | rfl | hother := hcases h n
  · exact .inl (Receiver.takeByte_functionSet (decodeCommand_three n)).1
  · exact .inr (Receiver.takeByte_functionSet (decodeCommand_two n))
  · obtain ⟨hm, hph⟩ := Receiver.takeByte_framing (p := p) (now := now) (r := r) hother
    exact .inr ⟨hm.trans hmode, hph.trans hphase⟩

/-- The framing, `j + 1` synchronisation nibbles after any (G10). -/
def Receiver.Framed (j : Nat) (r : Receiver) : Prop :=
  r.mode = .bit8 ∨ j = 0 ∧ r.mode = .bit4 ∧ r.phase = .high ∨ j ≤ 1 ∧ r.mode = .bit4 ∧ r.phase = .low ∧ r.high = 3#4

theorem Receiver.Framed.known {j : Nat} (h : r.Framed j) : r.mode ≠ .unknown := by
  obtain hmode | ⟨-, hmode, -⟩ | ⟨-, hmode, -⟩ := h <;> simp [hmode]

/-- After three of them the framing is 8-bit. -/
theorem Receiver.Framed.bit8 (h : r.Framed 2) : r.mode = .bit8 := by
  obtain hmode | ⟨hj, -⟩ | ⟨hj, -⟩ := h
  · exact hmode
  · cases hj
  · omega

theorem Receiver.settleMode_eq (h : r.mode ≠ .unknown) : r.settleMode = r := by
  unfold Receiver.settleMode
  split
  · contradiction
  · rfl
  · rfl

theorem Receiver.settleMode_known (r : Receiver) : r.settleMode.mode ≠ .unknown := by
  unfold Receiver.settleMode
  split
  · dsimp only
    split <;> nofun
  · simp [*]
  · simp [*]

@[simp] theorem Receiver.settleMode_busyUntil (r : Receiver) : r.settleMode.busyUntil = r.busyUntil := by
  unfold Receiver.settleMode
  split <;> rfl

@[simp] theorem Receiver.settleMode_quietUntil (r : Receiver) : r.settleMode.quietUntil = r.quietUntil := by
  unfold Receiver.settleMode
  split <;> rfl

/-- The first synchronisation nibble. -/
theorem Receiver.takeNibble_framed (h : r.mode ≠ .unknown) : (r.takeNibble p now false 3#4).Framed 0 := by
  cases hmode : r.mode with
  | unknown => exact absurd hmode h
  | bit8 =>
    rw [Receiver.takeNibble_bit8 hmode]
    exact .inl (Receiver.takeByte_functionSet (decodeCommand_three _)).1
  | bit4 =>
    cases hphase : r.phase with
    | high =>
      rw [Receiver.takeNibble_high hmode hphase]
      exact .inr (.inr ⟨Nat.zero_le _, hmode, rfl, rfl⟩)
    | low =>
      rw [Receiver.takeNibble_low hmode hphase]
      exact (Receiver.takeByte_settles (r := { r with phase := .high }) hmode rfl r.high 3#4).imp_right
        fun ⟨hmode', hphase'⟩ => .inl ⟨rfl, hmode', hphase'⟩

/-- The second and the third. -/
theorem Receiver.Framed.takeNibble {j : Nat} (h : r.Framed j) : (r.takeNibble p now false 3#4).Framed (j + 1) := by
  obtain hmode | ⟨rfl, hmode, hphase⟩ | ⟨-, hmode, hphase, hhigh⟩ := h
  · rw [Receiver.takeNibble_bit8 hmode]
    exact .inl (Receiver.takeByte_functionSet (decodeCommand_three _)).1
  · rw [Receiver.takeNibble_high hmode hphase]
    exact .inr (.inr ⟨Nat.le_refl _, hmode, rfl, rfl⟩)
  · rw [Receiver.takeNibble_low hmode hphase, hhigh]
    exact .inl (Receiver.takeByte_functionSet (decodeCommand_three _)).1

/-- The nibble that ends the synchronisation. -/
theorem Receiver.takeNibble_switch (h : r.mode = .bit8) :
    (r.takeNibble p now false 2#4).mode = .bit4 ∧ (r.takeNibble p now false 2#4).phase = .high := by
  rw [Receiver.takeNibble_bit8 h]
  exact Receiver.takeByte_functionSet (decodeCommand_two _)

end Transfer

/-! ## A WRNIB of Initialize -/

/-- The controller is ready, E is low (or no settle write could make an edge of it), and the own waits of the last request are over. -/
structure Receiver.Settled (p : Params) (now : Nat) (r : Receiver) : Prop where
  low : p.settle = false ∨ r.pins.any (fun u => !u.getLsbD p.eBit.val) = true
  busy : r.busyUntil ≤ now
  quiet : r.quietUntil ≤ now
  pulseEnd : r.pulseEnd ≤ now

/-- The framing and the stored half are the same. -/
structure Receiver.SameFraming (r r' : Receiver) : Prop where
  mode : r'.mode = r.mode
  phase : r'.phase = r.phase
  high : r'.high = r.high

section Nibble

variable {p : Params} {now j : Nat} {bl : Bool} {v : Byte} {r r' : Receiver} {k : Prop} {c : Bool}

theorem Receiver.Framed.congr (h : r.Framed j) (hframe : r.SameFraming r') : r'.Framed j := by
  unfold Receiver.Framed
  rw [hframe.mode, hframe.phase, hframe.high]
  exact h

theorem Receiver.Settled.ready (h : r.Settled p now) : max r.busyUntil r.quietUntil ≤ now := max_le h.busy h.quiet

theorem Receiver.Settled.later {now' : Nat} (h : r.Settled p now) (hnow : now ≤ now') : r.Settled p now' :=
  ⟨h.low, h.busy.trans hnow, h.quiet.trans hnow, h.pulseEnd.trans hnow⟩

/-- A transfer of 3, or of 2 in 8-bit framing, with RS low, to a controller that is ready: it takes the nibble in a framing it is in,
and is busy for the pulse's own wait. -/
theorem Receiver.transfer_nibble (hbusy : r.busyUntil ≤ now) (hrs : v.getLsbD p.rsBit.val = false)
    (hn : dataLines v = 3#4 ∨ dataLines v = 2#4 ∧ r.mode = .bit8) :
    (r.transfer p now v).busyUntil = now + p.tPost ∧ (r.transfer p now v).quietUntil = r.quietUntil ∧
      ∃ r₂ : Receiver, r₂.mode ≠ .unknown ∧ (r.mode ≠ .unknown → r.SameFraming r₂) ∧
        (r₂.takeNibble p now false (dataLines v)).SameFraming (r.transfer p now v) := by
  have hframe : r.mode ≠ .unknown → r.SameFraming (r.setBusy now p.tPost).settleMode := fun hne => by
    rw [Receiver.settleMode_eq (by exact hne)]
    exact ⟨rfl, rfl, rfl⟩
  have hbusy₂ : (r.setBusy now p.tPost).settleMode.busyUntil = now + p.tPost := by
    rw [Receiver.settleMode_busyUntil]
    exact max_eq_right (by omega)
  have hquiet₂ : (r.setBusy now p.tPost).settleMode.quietUntil = r.quietUntil := Receiver.settleMode_quietUntil _
  rw [Receiver.transfer_ready hbusy, hrs]
  obtain ⟨hbusy', hquiet'⟩ | ⟨hclear, -⟩ :=
    (r.setBusy now p.tPost).settleMode.takeNibble_times p now false (dataLines v)
  · exact ⟨hbusy'.trans hbusy₂, hquiet'.trans hquiet₂, _, Receiver.settleMode_known _, hframe, rfl, rfl, rfl⟩
  · obtain hthree | ⟨htwo, hmode⟩ := hn
    · simp [hthree] at hclear
    · simp [htwo, (hframe (by simp [hmode])).mode.trans hmode] at hclear

/-- The same of a whole pulse. -/
theorem Receiver.seePulse_nibble (hp : p.Wf) (hv : WellFormed.controlClear p v = true) (hrs : v.getLsbD p.rsBit.val = false)
    (hn : dataLines v = 3#4 ∨ dataLines v = 2#4 ∧ r.mode = .bit8) (h : r.Settled p (now + (p.tEh + p.tPost)))
    (hbusy : r.busyUntil ≤ now) :
    r.SameChecks (r.seePulse p now bl v) ∧ (r.seePulse p now bl v).Settled p (now + (p.tEh + p.tPost)) ∧
      ∃ r₂ : Receiver, r₂.mode ≠ .unknown ∧ (r.mode ≠ .unknown → r.SameFraming r₂) ∧
        (r₂.takeNibble p (now + p.tEh) false (dataLines v)).SameFraming (r.seePulse p now bl v) := by
  have he := overlay_e_of_clear (bl := bl) hp hv
  obtain ⟨d, u, hsee⟩ := Receiver.seePulse_transfer (now := now) (r := r) he h.low
  have hready : ({ r with pins := u, draws := d } : Receiver).busyUntil ≤ now + p.tEh := by
    show r.busyUntil ≤ _
    omega
  have hchecks : r.SameChecks (Receiver.transfer p (now + p.tEh) (overlay p bl v) { r with pins := u, draws := d }) :=
    Receiver.SameChecks.transfer ⟨rfl, rfl, rfl, rfl, rfl⟩ hready
  obtain ⟨hbusy', hquiet', r₂, hknown, hframe, htaken⟩ := Receiver.transfer_nibble (p := p) (v := overlay p bl v) hready
    ((overlay_rs hp).trans hrs) (by rwa [dataLines_overlay])
  rw [dataLines_overlay] at htaken
  rw [hsee]
  refine ⟨hchecks.trans ⟨rfl, rfl, rfl, rfl, rfl⟩, ⟨.inr (by simp [he]), ?_, ?_, ?_⟩, r₂, hknown, fun hne => ?_, ?_⟩
  · exact (hbusy'.trans (Nat.add_assoc _ _ _)).le
  · exact hquiet'.le.trans h.quiet
  · exact hchecks.pulseEnd.le.trans h.pulseEnd
  · exact ⟨(hframe hne).mode, (hframe hne).phase, (hframe hne).high⟩
  · exact ⟨htaken.mode, htaken.phase, htaken.high⟩

/-! ## The start of a nibble of Initialize (logs 11, 16) -/

theorem Receiver.nextPairing_own (p : Params) (v : Byte) (r : Receiver) : r.nextPairing p (.nibble v true) = none := by
  unfold Receiver.nextPairing
  cases r.mode <;> rfl

theorem isSwitchNibble_switch (p : Params) : isSwitchNibble p 0x20#8 = true := by
  have hrs : ∀ k : Fin 4, (0x20#8).getLsbD k.val = false := by decide
  rw [isSwitchNibble, hrs]
  rfl

theorem Receiver.hasty_sync (hwait : r.pulseEnd + 4500 ≤ now) : r.hasty p now (.nibble 0x30#8 true) = false := by
  simp [Receiver.hasty, PulseRequest.isSync, isSyncNibble_sync, show ¬ now < r.pulseEnd + 4500 by omega]

/-- The synchronisation nibble that comes now, as it is noted. -/
def Receiver.syncNibble (now : Nat) (r : Receiver) : SyncNibble :=
  { first := r.pairing == .lost || r.pairing == .between, waited := decide (r.pulseEnd + 1000000 ≤ now) }

/-- The synchronisation nibbles before it that count with it. -/
def Receiver.syncBefore (r : Receiver) : List SyncNibble := if r.pairing = .syncing true then r.syncRow.take 2 else []

theorem Receiver.nextRow_sync (hwait : r.pulseEnd + 4500 ≤ now) :
    r.nextRow p now (.nibble 0x30#8 true) = r.syncNibble now :: r.syncBefore := by
  by_cases hpair : r.pairing = .syncing true <;>
    simp [Receiver.nextRow, PulseRequest.isSync, isSyncNibble_sync, Receiver.hasty_sync hwait, Receiver.syncNibble,
      Receiver.syncBefore, Receiver.startsInitialize, PulseRequest.isOwn, hpair]

/-- A synchronisation nibble that keeps to R166: one of a synchronisation so far is only noted; else the content is lost, and the
mode with it unless two came before. -/
theorem Receiver.beginPulse_sync (hready : max r.busyUntil r.quietUntil ≤ now) (hwait : r.pulseEnd + 4500 ≤ now) :
    ((r.syncNibble now :: r.syncBefore).any (·.first) = true ∧
      ∃ c, r.beginPulse p now (.nibble 0x30#8 true) = r.note p now (.syncing true) (r.syncNibble now :: r.syncBefore) c) ∨
    (r.syncNibble now :: r.syncBefore).any (·.first) = false ∧ r.syncBefore.length = 2 ∧
      (∃ c, r.beginPulse p now (.nibble 0x30#8 true) =
        r.loseContent.note p now (.syncing true) ({ r.syncNibble now with first := true } :: r.syncBefore) c) ∨
    (r.syncNibble now :: r.syncBefore).any (·.first) = false ∧ r.syncBefore.length < 2 ∧
      ∃ c, r.beginPulse p now (.nibble 0x30#8 true) =
        r.lose.note p now (.syncing true) [{ r.syncNibble now with first := true }] c := by
  have hsoon : ¬ now < max r.busyUntil r.quietUntil := by omega
  have hsync : (PulseRequest.nibble 0x30#8 true).isSync p = true := isSyncNibble_sync p
  have hswitch : (PulseRequest.nibble 0x30#8 true).isSwitch p = false := by simp [PulseRequest.isSwitch, isSwitchNibble]
  have hlength : r.syncBefore.length ≤ 2 := by
    unfold Receiver.syncBefore
    split <;> simp
  unfold Receiver.beginPulse
  simp only [hsoon, if_false, Receiver.nextPairing_own, Receiver.synchronises, Receiver.resynchronised, Receiver.noteSync,
    PulseRequest.pairing, PulseRequest.isOwn, Receiver.nextRow_sync hwait, Receiver.hasty_sync hwait, hsync, hswitch, if_true,
    Bool.false_and, Bool.or_false, Bool.false_eq_true]
  by_cases hfirst : (r.syncNibble now :: r.syncBefore).any (·.first) = true
  · exact .inl ⟨hfirst, by rw [if_pos hfirst]; exact ⟨_, rfl⟩⟩
  · simp only [if_neg hfirst]
    have hfirst' := Bool.eq_false_iff.mpr hfirst
    by_cases htwo : r.syncBefore.length = 2
    · exact .inr (.inl ⟨hfirst', htwo, r.loseContent.nextSetup (.nibble 0x30#8 true), by simp [htwo]⟩)
    · exact .inr (.inr ⟨hfirst', by omega, r.lose.nextSetup (.nibble 0x30#8 true), by simp [htwo]⟩)

/-- `j + 1` synchronisation nibbles of this Initialize have been noted, the first of them after the 1000 ms wait (R120). Where `k`
holds no hazard has been met. -/
structure Receiver.InSync (k : Prop) (c : Bool) (j : Nat) (r : Receiver) : Prop where
  pairing : r.pairing = .syncing true
  begun : ∃ x, r.syncRow[j]? = some x ∧ x.waited = true ∧ (k → x.first = true)
  goesOn : 2 ≤ r.syncRow.length ∨ r.syncRow.any (·.first) = true
  content : k → r.contentLost = c

theorem Receiver.InSync.congr (h : r.InSync k c j) (hchecks : r.SameChecks r') : r'.InSync k c j :=
  ⟨hchecks.pairing.trans h.pairing, hchecks.syncRow ▸ h.begun, hchecks.syncRow ▸ h.goesOn, fun hk =>
    hchecks.contentLost.trans (h.content hk)⟩

theorem Receiver.Settled.note (h : r.Settled p now) (u : Pairing) (row : List SyncNibble) (c : Setup) :
    (r.note p now u row c).Settled p (now + (p.tEh + p.tPost)) :=
  ⟨h.low, h.busy.trans (Nat.le_add_right _ _), h.quiet.trans (Nat.le_add_right _ _), Nat.le_refl _⟩

theorem Receiver.Settled.loseContent (h : r.Settled p now) : r.loseContent.Settled p now := ⟨h.low, h.busy, h.quiet, h.pulseEnd⟩

theorem Receiver.Settled.lose (h : r.Settled p now) : r.lose.Settled p now := ⟨h.low, h.busy, h.quiet, h.pulseEnd⟩

/-- The first synchronisation nibble, after the 1000 ms wait: a synchronisation begins, as it may (R169), or content is lost. -/
theorem Receiver.beginPulse_firstSync (h : r.Settled p now) (hwait : r.pulseEnd + 1000000 ≤ now)
    (hk : k → (r.pairing = .lost ∨ r.pairing = .between) ∧ r.contentLost = c) :
    (r.beginPulse p now (.nibble 0x30#8 true)).InSync k c 0 ∧
      (r.beginPulse p now (.nibble 0x30#8 true)).Settled p (now + (p.tEh + p.tPost)) ∧
      (r.beginPulse p now (.nibble 0x30#8 true)).busyUntil ≤ now := by
  have hwaited : (r.syncNibble now).waited = true := by simpa [Receiver.syncNibble] using hwait
  have hfirst : k → (r.syncNibble now).first = true := fun hkk => by
    obtain ⟨hpair, -⟩ := hk hkk
    simpa [Receiver.syncNibble] using hpair
  obtain ⟨hany, d, e⟩ | ⟨hnone, -, d, e⟩ | ⟨hnone, -, d, e⟩ := Receiver.beginPulse_sync (p := p) h.ready (by omega) <;> rw [e]
  · exact ⟨⟨rfl, ⟨_, rfl, hwaited, hfirst⟩, .inr hany, fun hkk => (hk hkk).2⟩, h.note _ _ _, h.busy⟩
  · have hnk : ¬ k := fun hkk => by simp [hfirst hkk] at hnone
    exact ⟨⟨rfl, ⟨_, rfl, hwaited, fun _ => rfl⟩, .inr rfl, fun hkk => absurd hkk hnk⟩, h.loseContent.note _ _ _, h.busy⟩
  · have hnk : ¬ k := fun hkk => by simp [hfirst hkk] at hnone
    exact ⟨⟨rfl, ⟨_, rfl, hwaited, fun _ => rfl⟩, .inr rfl, fun hkk => absurd hkk hnk⟩, h.lose.note _ _ _, h.busy⟩

/-- The second or the third, 4500 µs after the one before it: the synchronisation goes on, at worst with the content lost. -/
theorem Receiver.InSync.beginPulse_nextSync (hsync : r.InSync k c j) (hj : j < 2) (h : r.Settled p now)
    (hwait : r.pulseEnd + 4500 ≤ now) :
    (r.beginPulse p now (.nibble 0x30#8 true)).InSync k c (j + 1) ∧
      (r.beginPulse p now (.nibble 0x30#8 true)).Settled p (now + (p.tEh + p.tPost)) ∧
      (r.beginPulse p now (.nibble 0x30#8 true)).busyUntil ≤ now ∧
      r.SameFraming (r.beginPulse p now (.nibble 0x30#8 true)) := by
  obtain ⟨hpair, ⟨x, hx, hwaited, hfirst⟩, hgoes, hcontent⟩ := hsync
  have hbefore : r.syncBefore = r.syncRow.take 2 := if_pos hpair
  have hx' : r.syncBefore[j]? = some x := by rw [hbefore, List.getElem?_take_of_lt hj, hx]
  have hmem := List.mem_of_getElem? hx'
  have hrow : ∀ y : SyncNibble, 2 ≤ (y :: r.syncBefore).length := fun y => by
    have hpos := List.length_pos_of_mem hmem
    simp only [List.length_cons]
    omega
  obtain ⟨hany, d, e⟩ | ⟨hnone, -, d, e⟩ | ⟨hnone, hlen, -⟩ := Receiver.beginPulse_sync (p := p) h.ready hwait
  · rw [e]
    exact ⟨⟨rfl, ⟨x, hx', hwaited, hfirst⟩, .inl (hrow _), hcontent⟩, h.note _ _ _, h.busy, rfl, rfl, rfl⟩
  · rw [e]
    have hnk : ¬ k := fun hkk => by
      have hxf := List.any_eq_false.mp hnone x (List.mem_cons_of_mem _ hmem)
      exact hxf (hfirst hkk)
    exact ⟨⟨rfl, ⟨x, hx', hwaited, hfirst⟩, .inl (hrow _), fun hkk => absurd hkk hnk⟩, h.loseContent.note _ _ _, h.busy,
      rfl, rfl, rfl⟩
  · rw [hbefore, List.length_take] at hlen
    obtain hlong | hany := hgoes
    · omega
    · rw [hbefore, List.take_of_length_le (by omega), List.any_cons, hany, Bool.or_true] at hnone
      cases hnone

/-- The nibble that ends the synchronisation, 150 µs after the third: what comes next is the configuration (R122), whether or not the
controller had been lost. -/
theorem Receiver.InSync.beginPulse_switch (hsync : r.InSync k c 2) (h : r.Settled p now) (hwait : r.pulseEnd + 150 ≤ now) :
    ∃ r' d, r.beginPulse p now (.nibble 0x20#8 true) = r'.note p now .between [] d ∧ r'.Settled p now ∧ r.SameFraming r' ∧
      (d = .complete ∨ d = .configuring configBytes) ∧ (k → r'.contentLost = c) := by
  obtain ⟨-, ⟨x, hx, hwaited, hfirst⟩, -, hcontent⟩ := hsync
  have hrow : 3 ≤ r.syncRow.length := (List.getElem?_eq_some_iff.mp hx).1
  have hsoon : ¬ now < max r.busyUntil r.quietUntil := by
    have := h.ready
    omega
  have hsync : (PulseRequest.nibble 0x20#8 true).isSync p = false := by simp [PulseRequest.isSync, isSyncNibble]
  have hswitch : (PulseRequest.nibble 0x20#8 true).isSwitch p = true := isSwitchNibble_switch p
  have hhasty : r.hasty p now (.nibble 0x20#8 true) = false := by
    simp [Receiver.hasty, hsync, show ¬ now < r.pulseEnd + 150 by omega]
  have hsetup : ∀ r' : Receiver, r'.syncRow = r.syncRow → r'.syncedSetup = .complete ∨ r'.syncedSetup = .configuring configBytes := by
    intro r' hr'
    unfold Receiver.syncedSetup
    rw [hr', hx]
    cases r'.setup <;> simp [hwaited]
  unfold Receiver.beginPulse
  simp only [hsoon, if_false, Receiver.nextPairing_own, Receiver.synchronises, Receiver.resynchronised, Receiver.noteSync,
    PulseRequest.pairing, hhasty, hsync, hswitch, Receiver.nextRow, Bool.false_eq_true, List.any_nil, Bool.not_false, Bool.true_and,
    Bool.false_or, decide_eq_true hrow, if_true, hx, Option.any_some]
  by_cases hf : x.first = true
  · rw [if_pos hf]
    exact ⟨r, _, rfl, h, ⟨rfl, rfl, rfl⟩, hsetup r rfl, hcontent⟩
  · rw [if_neg hf]
    exact ⟨r.loseContent, _, rfl, h.loseContent, ⟨rfl, rfl, rfl⟩, hsetup r.loseContent rfl, fun hkk => absurd (hfirst hkk) hf⟩

/-! ## The synchronisation (R121, R124) -/

/-- The controller after `j + 1` synchronisation nibbles of Initialize. -/
structure Receiver.Syncing (p : Params) (k : Prop) (c : Bool) (j now : Nat) (r : Receiver) : Prop where
  inSync : r.InSync k c j
  settled : r.Settled p now
  framed : r.Framed j

/-- The controller expects the bytes `left` of the configuration, and has had `done` (R122). -/
structure Receiver.Configured (p : Params) (k : Prop) (c : Bool) (left done : List Byte) (now : Nat) (r : Receiver) : Prop where
  settled : r.Settled p now
  mode : r.mode = .bit4
  phase : r.phase = .high
  pairing : r.pairing = .between
  setup : r.setup = .complete ∨ left ≠ [] ∧ r.setup = .configuring left
  content : k → r.contentLost = c
  executed : ∃ before, r.executed = before ++ done.map (LcdByte.mk false)
  function : 0x28#8 ∈ done → r.function = some ⟨false, true, false⟩
  display : 0x0C#8 ∈ done → r.display = some ⟨true, false, false⟩
  entry : 0x06#8 ∈ done → r.entry = some ⟨true, false⟩

theorem Receiver.Syncing.later {now' : Nat} (h : r.Syncing p k c j now) (hnow : now ≤ now') : r.Syncing p k c j now' :=
  ⟨h.inSync, h.settled.later hnow, h.framed⟩

theorem sync_rs (p : Params) : (0x30#8).getLsbD p.rsBit.val = false :=
  (show ∀ k : Fin 4, (0x30#8).getLsbD k.val = false by decide) p.rsBit

theorem switch_rs (p : Params) : (0x20#8).getLsbD p.rsBit.val = false :=
  (show ∀ k : Fin 4, (0x20#8).getLsbD k.val = false by decide) p.rsBit

/-- The first synchronisation nibble, 1000 ms after anything before it. -/
theorem Receiver.Settled.firstSync (h : r.Settled p now) (hp : p.Wf) (bl : Bool) (hwait : r.pulseEnd + 1000000 ≤ now)
    (hk : k → (r.pairing = .lost ∨ r.pairing = .between) ∧ r.contentLost = c) :
    ((r.beginPulse p now (.nibble 0x30#8 true)).seePulse p now bl 0x30#8).Syncing p k c 0 (now + (p.tEh + p.tPost)) := by
  obtain ⟨hsync, hsettled, hbusy⟩ := Receiver.beginPulse_firstSync h hwait hk
  obtain ⟨hchecks, hend, r₂, hknown, -, htaken⟩ :=
    Receiver.seePulse_nibble (bl := bl) hp (controlClear_sync p) (sync_rs p) (.inl rfl) hsettled hbusy
  exact ⟨hsync.congr hchecks, hend, (Receiver.takeNibble_framed hknown).congr htaken⟩

/-- The second and the third, each 4500 µs after the one before it. -/
theorem Receiver.Syncing.nextSync (h : r.Syncing p k c j now) (hp : p.Wf) (hj : j < 2) (bl : Bool) :
    ((r.beginPulse p (now + 4500) (.nibble 0x30#8 true)).seePulse p (now + 4500) bl 0x30#8).Syncing p k c (j + 1)
      (now + 4500 + (p.tEh + p.tPost)) := by
  obtain ⟨hsync, hsettled, hframed⟩ := h
  have hpulse := hsettled.pulseEnd
  obtain ⟨hsync', hsettled', hbusy, hframe⟩ := hsync.beginPulse_nextSync hj (hsettled.later (Nat.le_add_right now 4500)) (by omega)
  obtain ⟨hchecks, hend, r₂, -, hframe₂, htaken⟩ :=
    Receiver.seePulse_nibble (bl := bl) hp (controlClear_sync p) (sync_rs p) (.inl rfl) hsettled' hbusy
  have hframed' := hframed.congr hframe
  exact ⟨hsync'.congr hchecks, hend, ((hframed'.congr (hframe₂ hframed'.known)).takeNibble).congr htaken⟩

/-- The nibble that ends the synchronisation: 4-bit framing at the high half, with the configuration to come. -/
theorem Receiver.Syncing.switch (h : r.Syncing p k c 2 now) (hp : p.Wf) (bl : Bool) :
    ((r.beginPulse p (now + 150) (.nibble 0x20#8 true)).seePulse p (now + 150) bl 0x20#8).Configured p k c configBytes []
      (now + 150 + (p.tEh + p.tPost)) := by
  obtain ⟨hsync, hsettled, hframed⟩ := h
  have hpulse := hsettled.pulseEnd
  obtain ⟨r', d, e, hsettled', hframe, hd, hcontent⟩ :=
    hsync.beginPulse_switch (hsettled.later (Nat.le_add_right now 150)) (by omega)
  have hmode : r'.mode = .bit8 := hframe.mode.trans hframed.bit8
  rw [e]
  obtain ⟨hchecks, hend, r₂, -, hframe₂, htaken⟩ :=
    Receiver.seePulse_nibble (bl := bl) hp (controlClear_switch p) (switch_rs p) (.inr ⟨rfl, by exact hmode⟩)
      (hsettled'.note .between [] d) hsettled'.busy
  obtain ⟨hm, hph⟩ := Receiver.takeNibble_switch (p := p) (now := now + 150 + p.tEh)
    ((hframe₂ (show r'.mode ≠ .unknown by simp [hmode])).mode.trans hmode)
  exact {
    settled := hend
    mode := htaken.mode.trans hm
    phase := htaken.phase.trans hph
    pairing := hchecks.pairing
    setup := by
      rw [hchecks.setup]
      exact hd.imp_right fun hd => ⟨nofun, hd⟩
    content := fun hkk => hchecks.contentLost.trans (hcontent hkk)
    executed := ⟨_, (List.append_nil _).symm⟩
    function := nofun
    display := nofun
    entry := nofun }

/-! ## The configuration (R122, R123) -/

/-- The command of a byte of the configuration keeps 4-bit framing at the high half, and of the three flag registers writes at most its
own, as Initialize wants it. -/
structure ConfigCommand (b : Byte) (i : Instr) : Prop where
  encodes : encodeCommand i = some b
  framing : ∀ (p : Params) (now : Nat) (r : Receiver), r.mode = .bit4 → r.phase = .high →
    (r.command p now i).mode = .bit4 ∧ (r.command p now i).phase = .high
  function : ∀ (p : Params) (now : Nat) (r : Receiver), 0x28#8 = b ∨ r.function = some ⟨false, true, false⟩ →
    (r.command p now i).function = some ⟨false, true, false⟩
  display : ∀ (p : Params) (now : Nat) (r : Receiver), 0x0C#8 = b ∨ r.display = some ⟨true, false, false⟩ →
    (r.command p now i).display = some ⟨true, false, false⟩
  entry : ∀ (p : Params) (now : Nat) (r : Receiver), 0x06#8 = b ∨ r.entry = some ⟨true, false⟩ →
    (r.command p now i).entry = some ⟨true, false⟩

theorem configCommands : ∀ b ∈ configBytes, ∃ i, ConfigCommand b i := by
  refine List.forall_mem_cons.mpr ⟨⟨.functionSet false true false 0#2, ?_⟩, List.forall_mem_cons.mpr
    ⟨⟨.displayControl true false false, ?_⟩, List.forall_mem_cons.mpr ⟨⟨.clearDisplay, ?_⟩, List.forall_mem_cons.mpr
      ⟨⟨.entryModeSet true false, ?_⟩, List.forall_mem_singleton.mpr ⟨.returnHome, ?_⟩⟩⟩⟩⟩
  · exact ⟨rfl, fun _ _ _ _ _ => ⟨rfl, rfl⟩, fun _ _ _ _ => rfl, fun _ _ _ h => h.resolve_left (by decide),
      fun _ _ _ h => h.resolve_left (by decide)⟩
  · exact ⟨rfl, fun _ _ _ hm hp => ⟨hm, hp⟩, fun _ _ _ h => h.resolve_left (by decide), fun _ _ _ _ => rfl,
      fun _ _ _ h => h.resolve_left (by decide)⟩
  · exact ⟨rfl, fun _ _ _ hm hp => ⟨hm, hp⟩, fun _ _ _ h => h.resolve_left (by decide),
      fun _ _ _ h => h.resolve_left (by decide), fun _ _ _ h => h.resolve_left (by decide)⟩
  · exact ⟨rfl, fun _ _ _ hm hp => ⟨hm, hp⟩, fun _ _ _ h => h.resolve_left (by decide),
      fun _ _ _ h => h.resolve_left (by decide), fun _ _ _ _ => rfl⟩
  · exact ⟨rfl, fun _ _ _ hm hp => ⟨hm, hp⟩, fun _ _ _ h => h.resolve_left (by decide),
      fun _ _ _ h => h.resolve_left (by decide), fun _ _ _ h => h.resolve_left (by decide)⟩

/-- How long a byte of the configuration keeps the controller busy beyond its own waits (R164). -/
def configWait (b : Byte) : Nat := if b = 0x01#8 ∨ b = 0x02#8 then 2000 else 0

/-- The controller as it takes a byte of the configuration. -/
def Receiver.configTaken (p : Params) (now : Nat) (b : Byte) (u : Option Byte) (d : Nat) (n : Nibble) (r : Receiver) : Receiver :=
  (r.note p now .between [] (r.nextSetup (.byte b false))).halfTaken u d n (now + p.tEh + p.tPost + p.tEh + p.tPost)

/-- When the controller is ready again, and the bus need no longer be quiet. -/
theorem Receiver.configTaken_times {b : Byte} (hquiet : r.quietUntil ≤ now) (u : Option Byte) (d : Nat) (n : Nibble) :
    ((r.configTaken p now b u d n).executeByte p (now + p.tEh + p.tPost + p.tEh) false b).busyUntil ≤
        now + (p.tEh + p.tPost) + (p.tEh + p.tPost) + configWait b ∧
      ((r.configTaken p now b u d n).executeByte p (now + p.tEh + p.tPost + p.tEh) false b).quietUntil ≤
        now + (p.tEh + p.tPost) + (p.tEh + p.tPost) + configWait b := by
  have hb : (r.configTaken p now b u d n).busyUntil = now + p.tEh + p.tPost + p.tEh + p.tPost := rfl
  have hq : (r.configTaken p now b u d n).quietUntil ≤ now := hquiet
  obtain ⟨hb', hq'⟩ | ⟨hclear, hb', hq'⟩ :=
    (r.configTaken p now b u d n).executeByte_times p (now + p.tEh + p.tPost + p.tEh) false b
  · omega
  · have hwait : configWait b = 2000 := if_pos hclear
    omega

/-- How much of Initialize is left after a byte in its turn. -/
theorem Receiver.Configured.nextSetup {b : Byte} {left done : List Byte} (h : r.Configured p k c (b :: left) done now) :
    r.nextSetup (.byte b false) = .complete ∨ left ≠ [] ∧ r.nextSetup (.byte b false) = .configuring left := by
  unfold Receiver.nextSetup
  obtain hs | ⟨-, hs⟩ := h.setup
  · simp [hs]
  · cases left <;> simp [hs]

/-- A byte of the configuration in its turn is executed. -/
theorem Receiver.Configured.seeByte {b : Byte} {left done : List Byte} (h : r.Configured p k c (b :: left) done now) (hp : p.Wf)
    (bl : Bool) :
    ∃ u d n, (r.beginPulse p now (.byte b false)).seeByte p now bl b false =
      { (r.configTaken p now b u d n).executeByte p (now + p.tEh + p.tPost + p.tEh) false b with
        pins := some (overlay p bl (loNibble p b false)) } := by
  rw [Receiver.beginPulse_byte_inPlace h.settled.ready ⟨h.mode, h.phase, h.pairing⟩]
  obtain ⟨u, d, n, hsee⟩ := Receiver.seeByte_taken (r := r.note p now .between [] (r.nextSetup (.byte b false))) (now := now)
    (bl := bl) (b := b) (rs := false) hp h.mode h.phase h.settled.busy h.settled.low
  have hset : (r.configTaken p now b u d n).setup ≠ .missing := by
    obtain hs | ⟨-, hs⟩ := h.nextSetup <;> simp [Receiver.configTaken, Receiver.halfTaken, hs]
  refine ⟨u, d, n, ?_⟩
  rw [← Receiver.takeByte_eq hset]
  exact hsee

/-- It leaves the rest still to come. -/
theorem Receiver.Configured.byte {b : Byte} {left done : List Byte} (h : r.Configured p k c (b :: left) done now) (hp : p.Wf)
    (hb : b ∈ configBytes) (bl : Bool) :
    ((r.beginPulse p now (.byte b false)).seeByte p now bl b false).Configured p k c left (done ++ [b])
      (now + (p.tEh + p.tPost) + (p.tEh + p.tPost) + configWait b) := by
  obtain ⟨i, hcommand⟩ := configCommands b hb
  obtain ⟨before, hexecuted⟩ := h.executed
  obtain ⟨u, d, n, hsee⟩ := h.seeByte hp bl
  have hchecks := (r.configTaken p now b u d n).executeByte_sameChecks p (now + p.tEh + p.tPost + p.tEh) false b
  obtain ⟨hbusy, hquiet⟩ := Receiver.configTaken_times (p := p) (b := b) h.settled.quiet u d n
  have hexec : (r.configTaken p now b u d n).executeByte p (now + p.tEh + p.tPost + p.tEh) false b =
      Receiver.command p (now + p.tEh + p.tPost + p.tEh) i
        { r.configTaken p now b u d n with executed := r.executed ++ [⟨false, b⟩] } :=
    Receiver.takeCommand_command hcommand.encodes
  obtain ⟨hm, hph⟩ := hcommand.framing p (now + p.tEh + p.tPost + p.tEh)
    { r.configTaken p now b u d n with executed := r.executed ++ [⟨false, b⟩] } h.mode rfl
  have hmem : ∀ x : Byte, x ∈ done ++ [b] → x = b ∨ x ∈ done := fun x hx => by simpa [or_comm] using hx
  rw [hsee]
  exact {
    settled := {
      low := .inr (by simp [loNibble_e hp])
      busy := hbusy
      quiet := hquiet
      pulseEnd := hchecks.pulseEnd.le.trans (show now + (p.tEh + p.tPost) ≤ _ by omega) }
    mode := (congrArg Receiver.mode hexec).trans hm
    phase := (congrArg Receiver.phase hexec).trans hph
    pairing := hchecks.pairing
    setup := hchecks.setup ▸ h.nextSetup
    content := fun hk => hchecks.contentLost.trans (h.content hk)
    executed := ⟨before, by
      rw [Receiver.executeByte_executed]
      simp [Receiver.configTaken, Receiver.halfTaken, Receiver.note, hexecuted]⟩
    function := fun hx => (congrArg Receiver.function hexec).trans (hcommand.function _ _ _ ((hmem _ hx).imp_right h.function))
    display := fun hx => (congrArg Receiver.display hexec).trans (hcommand.display _ _ _ ((hmem _ hx).imp_right h.display))
    entry := fun hx => (congrArg Receiver.entry hexec).trans (hcommand.entry _ _ _ ((hmem _ hx).imp_right h.entry)) }

/-! ## The SETBL of P_INIT_BL_WRITE (R120) -/

/-- A transfer keeps the controller busy, and the bus quiet, for at most a pulse and 2000 µs (log 11). -/
theorem Receiver.transfer_times_le {d : Nat} (hd : p.tEh + p.tPost + 2000 ≤ d) (hbusy : r.busyUntil ≤ now + d)
    (hquiet : r.quietUntil ≤ now + d) :
    (r.transfer p now v).busyUntil ≤ now + d ∧ (r.transfer p now v).quietUntil ≤ now + d := by
  by_cases hready : now < r.busyUntil
  · rw [Receiver.transfer, if_pos hready]
    show max r.busyUntil (now + (p.tEh + p.tPost + 2000)) ≤ now + d ∧ r.quietUntil ≤ now + d
    omega
  · rw [Receiver.transfer_ready (by omega)]
    have hbusy₂ : (r.setBusy now p.tPost).settleMode.busyUntil ≤ now + d := by
      rw [Receiver.settleMode_busyUntil]
      exact max_le hbusy (by omega)
    have hquiet₂ : (r.setBusy now p.tPost).settleMode.quietUntil ≤ now + d := (Receiver.settleMode_quietUntil _).le.trans hquiet
    obtain ⟨hb, hq⟩ | ⟨-, hb, hq⟩ :=
      (r.setBusy now p.tPost).settleMode.takeNibble_times p now (v.getLsbD p.rsBit.val) (dataLines v) <;> omega

/-- The controller as Initialize's 1000 ms wait starts: it is ready at the end of the wait, and E is low then. Where `k` holds, a
synchronisation may begin (R169), and no hazard has been met. -/
structure Receiver.Waits (p : Params) (k : Prop) (c : Bool) (now : Nat) (r : Receiver) : Prop where
  settled : r.Settled p (now + 1000000)
  pulseEnd : r.pulseEnd ≤ now
  clean : k → (r.pairing = .lost ∨ r.pairing = .between) ∧ r.contentLost = c

theorem backlightByte_e (hp : p.Wf) (on : Bool) : (backlightByte p on).getLsbD p.eBit.val = false := by
  obtain ⟨-, -, -, -, -, hebl, -⟩ := hp
  have hne : p.eBit.val ≠ p.blBit.val := fun h => hebl (Fin.ext h)
  simp [backlightByte_bit, hne]

/-- A write of SETBL leaves E low, and the controller ready at the end of the 1000 ms wait; it is no hazard to a controller that is
ready. -/
theorem Receiver.refreshed_waits (hp : p.Wf) (hd : p.tEh + p.tPost + 2000 ≤ 1000000) (hbusy : r.busyUntil ≤ now + 1000000)
    (hquiet : r.quietUntil ≤ now + 1000000) (hpulse : r.pulseEnd ≤ now)
    (hk : k → (r.pairing = .lost ∨ r.pairing = .between) ∧ r.contentLost = c ∧ r.busyUntil ≤ now ∧ r.quietUntil ≤ now) (on : Bool) :
    ((r.beginRefresh now).observe p now (backlightByte p on)).Waits p k c now := by
  obtain ⟨r₁, hr₁, hbusy₁, hquiet₁, hpulse₁, hk₁⟩ : ∃ r₁, r.beginRefresh now = r₁ ∧ r₁.busyUntil = r.busyUntil ∧
      r₁.quietUntil = r.quietUntil ∧ r₁.pulseEnd = r.pulseEnd ∧ (k → r₁ = r) := by
    refine ⟨_, rfl, ?_⟩
    unfold Receiver.beginRefresh
    split
    · exact ⟨rfl, rfl, rfl, fun hkk => absurd (hk hkk).2.2.2 (by omega)⟩
    · exact ⟨rfl, rfl, rfl, fun _ => rfl⟩
  have hlow : (r₁.observe p now (backlightByte p on)).pins.any (fun u => !u.getLsbD p.eBit.val) = true := by
    simp [backlightByte_e hp]
  rw [hr₁]
  by_cases he : r₁.fallingEdge p (backlightByte p on) = true
  · obtain ⟨hb, hq⟩ := Receiver.transfer_times_le (r := { r₁ with draws := r₁.draws + 1 }) (v := backlightByte p on) hd
      (hbusy₁.le.trans hbusy) (hquiet₁.le.trans hquiet)
    refine ⟨⟨.inr hlow, ?_, ?_, ?_⟩, ?_, fun hkk => ?_⟩
    · rw [Receiver.observe_edge he]
      exact hb
    · rw [Receiver.observe_edge he]
      exact hq
    · rw [Receiver.observe_pulseEnd]
      omega
    · rw [Receiver.observe_pulseEnd]
      omega
    · obtain ⟨hpair, hlost, hready, -⟩ := hk hkk
      obtain rfl := hk₁ hkk
      have hchecks : r₁.SameChecks (Receiver.transfer p now (backlightByte p on) { r₁ with draws := r₁.draws + 1 }) :=
        Receiver.SameChecks.transfer ⟨rfl, rfl, rfl, rfl, rfl⟩ hready
      rw [Receiver.observe_edge he]
      exact ⟨hpair.imp hchecks.pairing.trans hchecks.pairing.trans, hchecks.contentLost.trans hlost⟩
  · rw [Receiver.observe_noEdge (by simpa using he)] at hlow ⊢
    refine ⟨⟨.inr hlow, hbusy₁.le.trans hbusy, hquiet₁.le.trans hquiet, ?_⟩, hpulse₁.le.trans hpulse, fun hkk => ?_⟩
    · exact hpulse₁.le.trans (hpulse.trans (Nat.le_add_right _ _))
    · obtain ⟨hpair, hlost, -⟩ := hk hkk
      obtain rfl := hk₁ hkk
      exact ⟨hpair, hlost⟩

end Nibble

/-! ## Initialize, line by line -/

section View

variable {p : Params} {now : Nat} {bl : Bool} {d : Driver} {x : OpView} {P Q : Nat → Receiver → Prop}

theorem seeLines_pulseLines (p : Params) (now : Nat) (bl : Bool) (v : Byte) (ls : List Line) (r : Receiver) :
    seeLines p now (pulseLines p bl v ++ ls) r = seeLines p (now + (p.tEh + p.tPost)) ls (r.seePulse p now bl v) := by
  cases hs : p.settle <;> simp [pulseLines, hs, seeLines, delayLines, Receiver.seePulse, Nat.add_assoc]

theorem seeLines_byteLines (p : Params) (now : Nat) (bl : Bool) (b : Byte) (rs : Bool) (r : Receiver) :
    seeLines p now (byteLines p bl b rs) r = r.seeByte p now bl b rs := by
  have hlow := seeLines_pulseLines p (now + (p.tEh + p.tPost)) bl (loNibble p b rs) [] (r.seePulse p now bl (hiNibble p b rs))
  rw [List.append_nil] at hlow
  rw [byteLines, seeLines_pulseLines, hlow, Receiver.seeByte, Nat.add_assoc now p.tEh p.tPost]
  rfl

theorem delaysLeft_byteLines (p : Params) (bl : Bool) (b : Byte) (rs : Bool) :
    delaysLeft (byteLines p bl b rs) = p.tEh + p.tPost + (p.tEh + p.tPost) := by
  have hlow := delaysLeft_pulseLines p bl (loNibble p b rs) []
  rw [List.append_nil] at hlow
  rw [byteLines, delaysLeft_pulseLines, hlow]
  rfl

/-- Between two lines of an operation the driver is `d`, and `P` holds of the time and the controller. -/
def OpView.Is (d : Driver) (P : Nat → Receiver → Prop) (x : OpView) : Prop := x.drv = d ∧ P x.now x.rcv

theorem OpView.Is.wrnib (h : x.Is d P) (hlife : d.life = .initializing) {v : Byte} (hv : WellFormed.controlClear p v = true)
    (hstep : ∀ now bl r, P now r →
      Q (now + (p.tEh + p.tPost)) ((r.beginPulse p now (.nibble v true)).seePulse p now bl v)) :
    (x.line p (issueLine (.wrnib v))).Is d Q := by
  obtain ⟨rfl, hP⟩ := h
  have hdelays := delaysLeft_pulseLines p x.bl v []
  have hsee := seeLines_pulseLines p x.now x.bl v [] (x.rcv.beginPulse p x.now (.nibble v true))
  rw [List.append_nil] at hdelays hsee
  have hQ := hstep x.now x.bl x.rcv hP
  simp only [issueLine, OpView.line, decodeRequest_wrnib hv, OpView.Is, OpView.request, linesOf_wrnib hv, hdelays, startRcv, hlife,
    beq_self_eq_true, hsee]
  exact ⟨trivial, hQ⟩

theorem OpView.Is.waitus (h : x.Is d P) (hp : p.Wf) {n : BitVec 24} (hn : n.toNat < 2 ^ 20) (hpos : n ≠ 0#24)
    (hstep : ∀ now r, P now r → Q (now + n.toNat) r) : (x.line p (issueLine (.waitus n))).Is d Q := by
  obtain ⟨rfl, hP⟩ := h
  have hQ := hstep x.now x.rcv hP
  simp only [issueLine, OpView.line, decodeRequest_waitus hp hn, OpView.Is, OpView.request, linesOf_waitus, waitLines, hpos, if_false,
    delayLines, delaysLeft, seeLines, startRcv]
  exact ⟨trivial, hQ⟩

theorem OpView.Is.sendcmd (h : x.Is d P) {b : Byte}
    (hstep : ∀ now bl r, P now r →
      Q (now + (p.tEh + p.tPost) + (p.tEh + p.tPost)) ((r.beginPulse p now (.byte b false)).seeByte p now bl b false)) :
    (x.request p (.sendcmd b)).Is d Q := by
  obtain ⟨rfl, hP⟩ := h
  have hQ := hstep x.now x.bl x.rcv hP
  rw [Nat.add_assoc] at hQ
  simp only [OpView.Is, OpView.request, linesOf_sendcmd, delaysLeft_byteLines, seeLines_byteLines, startRcv]
  exact ⟨trivial, hQ⟩

theorem OpView.line_sendcmd (p : Params) (x : OpView) (b : Byte) :
    x.line p (issueLine (.sendcmd b)) = x.request p (.sendcmd b) :=
  congrArg (fun i => x.request p i) (decodeRequest_sendcmd p b)

theorem OpView.line_sendDisplayControl (p : Params) (h : x.drv = d) :
    x.line p .sendDisplayControl = x.request p (.sendcmd (displayControlByte d)) := by
  rw [← h]
  rfl

theorem OpView.Is.setDisplayOn (h : x.Is d P) (p : Params) (on : Bool) :
    (x.line p (.setDisplayOn on)).Is { d with displayOn := on } P := by
  obtain ⟨rfl, hP⟩ := h
  exact ⟨rfl, hP⟩

section Configuration

variable {k : Prop} {c : Bool} {b : Byte} {left done : List Byte}

/-- A byte of the configuration that needs no wait after it. -/
theorem OpView.Is.configByte (h : x.Is d (Receiver.Configured p k c (b :: left) done)) (hp : p.Wf) (hb : b ∈ configBytes)
    (hwait : configWait b = 0) : (x.request p (.sendcmd b)).Is d (Receiver.Configured p k c left (done ++ [b])) :=
  h.sendcmd fun _ bl _ hr => by simpa [hwait] using hr.byte hp hb bl

/-- ClearDisplay, or ReturnHome, and the wait after it (R123). -/
theorem OpView.Is.configByte_wait (h : x.Is d (Receiver.Configured p k c (b :: left) done)) (hp : p.Wf) (hb : b ∈ configBytes)
    (hwait : configWait b = 2000) :
    ((x.request p (.sendcmd b)).line p (issueLine (.waitus 2000#24))).Is d (Receiver.Configured p k c left (done ++ [b])) := by
  have hsent : (x.request p (.sendcmd b)).Is d (fun now => Receiver.Configured p k c left (done ++ [b]) (now + 2000)) :=
    h.sendcmd fun _ bl _ hr => by simpa [hwait] using hr.byte hp hb bl
  exact hsent.waitus hp (by decide) (by decide) fun _ _ hr => hr

/-- The driver while Initialize runs, until it writes its display flag. -/
def Driver.initializing : Driver := { Driver.reset with life := .initializing }

/-- Initialize after its SETBL: the 1000 ms wait, the synchronisation, and the configuration (R120 to R123). -/
theorem initializeRest_configures (hp : p.Wf) (h : x.Is Driver.initializing (Receiver.Waits p k c)) :
    (initializeRest.foldl (OpView.line p) x).Is { Driver.initializing with displayOn := true }
      (Receiver.Configured p k c [] configBytes) := by
  have h₁ := h.waitus (n := 1000000#24) (Q := fun now r => r.Settled p now ∧ r.pulseEnd + 1000000 ≤ now ∧
    (k → (r.pairing = .lost ∨ r.pairing = .between) ∧ r.contentLost = c)) hp (by decide) (by decide)
    fun now r hr => ⟨hr.settled, Nat.add_le_add_right hr.pulseEnd _, hr.clean⟩
  have h₂ := h₁.wrnib (Q := Receiver.Syncing p k c 0) rfl (controlClear_sync p)
    fun now bl r ⟨hsettled, hwait, hclean⟩ => hsettled.firstSync hp bl hwait hclean
  have waited : ∀ {j : Nat} {y : OpView}, y.Is Driver.initializing (Receiver.Syncing p k c j) →
      (y.line p (issueLine (.waitus 4500#24))).Is Driver.initializing
        (fun now r => ∃ before, now = before + 4500 ∧ r.Syncing p k c j before) := fun hy =>
    hy.waitus hp (by decide) (by decide) fun now _ hr => ⟨now, rfl, hr⟩
  have h₃ := (waited h₂).wrnib (Q := Receiver.Syncing p k c 1) rfl (controlClear_sync p)
    fun _ bl _ ⟨_, hnow, hr⟩ => hnow ▸ hr.nextSync hp (by decide) bl
  have h₄ := (waited h₃).wrnib (Q := Receiver.Syncing p k c 2) rfl (controlClear_sync p)
    fun _ bl _ ⟨_, hnow, hr⟩ => hnow ▸ hr.nextSync hp (by decide) bl
  have h₅ := h₄.waitus (n := 150#24) (Q := fun now r => ∃ before, now = before + 150 ∧ r.Syncing p k c 2 before) hp (by decide)
    (by decide) fun now _ hr => ⟨now, rfl, hr⟩
  have h₆ := h₅.wrnib (Q := Receiver.Configured p k c configBytes []) rfl (controlClear_switch p)
    fun _ bl _ ⟨_, hnow, hr⟩ => hnow ▸ hr.switch hp bl
  have h₇ := h₆.configByte hp (by decide) (by decide)
  have h₈ := (h₇.setDisplayOn p true)
  have h₉ := ((h₈.configByte hp (by decide) (by decide)).configByte_wait hp (by decide) (by decide)).configByte hp (by decide)
    (by decide)
  have h₁₀ := h₉.configByte_wait hp (by decide) (by decide)
  have hflags : displayControlByte { Driver.initializing with displayOn := true } = 0x0C#8 := rfl
  have hcomposite := OpView.line_sendDisplayControl p h₈.1
  rw [hflags] at hcomposite
  simpa only [initializeRest, syncLines, configLines, clearLines, homeLines, List.foldl_cons, List.foldl_append, List.foldl_nil,
    OpView.line_sendcmd, hcomposite, configBytes, List.nil_append, List.cons_append] using h₁₀

end Configuration

end View

/-! ## Wherever the controller was (R124) -/

section Recovers

variable {s : State} {k : Prop} {c : Bool}

/-- As the 1000 ms wait of Initialize starts, after the SETBL of P_INIT_BL_WRITE if there is one. -/
theorem initializeFirst_waits (hp : s.cfg.Wf) (hlow : s.cfg.settle = false ∨ s.ELow ∨ s.cfg.initBlWrite = true)
    (hd : s.cfg.initBlWrite = true → s.cfg.tEh + s.cfg.tPost + 2000 ≤ 1000000) (hbusy : s.rcv.busyUntil ≤ s.now + 1000000)
    (hquiet : s.rcv.quietUntil ≤ s.now + 1000000) (hpulse : s.rcv.pulseEnd ≤ s.now)
    (hk : k → (s.rcv.pairing = .lost ∨ s.rcv.pairing = .between) ∧ s.rcv.contentLost = c ∧
      (s.cfg.initBlWrite = false ∨ s.rcv.busyUntil ≤ s.now ∧ s.rcv.quietUntil ≤ s.now)) :
    ((initializeFirst s.cfg).foldl (OpView.line s.cfg) (constructing [] s).view).Is Driver.initializing
      (Receiver.Waits s.cfg k c) := by
  cases hw : s.cfg.initBlWrite with
  | false =>
    have hlow' : s.cfg.settle = false ∨ s.ELow := hlow.imp_right fun h => h.resolve_right (by simp [hw])
    rw [initializeFirst, if_neg (by simp [hw])]
    exact ⟨rfl, ⟨hlow', hbusy, hquiet, hpulse.trans (Nat.le_add_right _ _)⟩, hpulse, fun hkk =>
      ⟨(hk hkk).1, (hk hkk).2.1⟩⟩
  | true =>
    rw [initializeFirst_view _ _ hw]
    refine ⟨rfl, Receiver.refreshed_waits hp (hd hw) hbusy hquiet hpulse (fun hkk => ?_) true⟩
    obtain ⟨hpair, hlost, hready⟩ := hk hkk
    exact ⟨hpair, hlost, hready.resolve_left (by simp [hw])⟩

/-- Settles O60: the synchronisation brings the controller into 4-bit framing from wherever it was, and the configuration is executed;
where a synchronisation may begin, nothing in it is a hazard. -/
theorem initializeRecoversController : Obligations.InitializeRecoversController := by
  unfold Obligations.InitializeRecoversController
  intro s rest hs hin hp hlow hd hb hbusy hquiet hpulse
  obtain ⟨t, hrun, -, -, hview⟩ := run_construct hs hin hp hb
  have hfirst := initializeFirst_waits
    (k := (s.rcv.pairing = .lost ∨ s.rcv.pairing = .between) ∧
      (s.cfg.initBlWrite = false ∨ s.rcv.busyUntil ≤ s.now ∧ s.rcv.quietUntil ≤ s.now))
    (c := s.rcv.contentLost) hp hlow hd hbusy hquiet hpulse fun ⟨hpair, hready⟩ => ⟨hpair, rfl, hready⟩
  obtain ⟨-, hdone⟩ := initializeRest_configures hp hfirst
  rw [← List.foldl_append, ← initializeLines_eq] at hdone
  have hrcv : t.rcv = (initializeView s).rcv := congrArg OpView.rcv hview
  have hnow : t.now = (initializeView s).now := congrArg OpView.now hview
  rw [initializeView] at hrcv hnow
  rw [← hrcv, ← hnow] at hdone
  obtain ⟨before, hexecuted⟩ := hdone.executed
  exact ⟨t, before, hrun, hdone.mode, hdone.phase, hdone.setup.resolve_right fun h => h.1 rfl, hdone.settled.busy,
    hdone.display (by decide), hdone.entry (by decide), hdone.function (by decide), hexecuted,
    fun hpair hready => hdone.content ⟨hpair, hready⟩⟩

end Recovers

end Sys2Proof.Machine
